-- ==== Sys2Proof/Word.lean ====
section
/-! DEFINITION. The word types of the block.

The width `TS_W` of a time and the width `TMO_W` of a timeout are parameters of an instance (00_scope.md R5), so no fixed
bit vector type is right for them: a time in µs (R10, R27, R83) and a timeout in ms (R83) are natural numbers, every
subtraction and sum of times is taken modulo `2^TS_W` where the spec says so (R10, R101), and `State.Inv` says that each
register is below `2^TS_W` (log 2). 14 is the larger `D` of R6, for every register whose width is `D` or `N`. -/

namespace Sys2Proof

/-- The data bits of a frame. `D` is 13 or 14 (R6). The register holds 14 bits, and the bits from `D` up are 0 in every
state that satisfies the invariant (R25, R29). -/
abbrev FrameBits := BitVec 14

/-- Format RSP, the response word of the consumer port (R81). -/
abbrev RspWord := BitVec 35

/-- The `data` field of a response (R81). -/
abbrev DataWord := BitVec 32

end Sys2Proof
end

