-- ==== Sys2Proof/Config.lean ====
section
/-! DEFINITION. The configuration of an instance (00_scope.md R5, 10_state.md R40) and the values that the spec leaves
`OPEN`. The configuration is plain data, chosen when the instance is made and never changed (60_exceptions.md R219). -/

namespace Sys2Proof

/-- The sensor profile, one of four (R6). -/
inductive Profile where
  | full11
  | full14
  | narrow11
  | narrow14
  deriving DecidableEq, Repr, Inhabited

/-- `RATE_C_PER_S`, a non-negative exact rational in °C per second (R5, R155), as the fraction `num / (denPred + 1)`:
every value of the type is a legal rate, and every non-negative rational is one of them. -/
structure Rate where
  num : Nat
  denPred : Nat
  deriving DecidableEq, Repr, Inhabited

/-- The choice of `TempEncode` (R156): the recommended instance, or any other total function of the temperature, which
the model names by a number and knows nothing about (`Config.customEncode`). -/
inductive TempFormat where
  /-- IEEE 754 binary32, one rounding, to nearest, ties to even: the recommended instance (R156). -/
  | binary32
  /-- The free function number `id`. -/
  | custom (id : Nat)
  deriving DecidableEq, Repr, Inhabited

/-- `TS_W` and `TMO_W`, the widths in bits of a time and of a timeout operand: positive integers (R5, 92_eei_decisions.md
D1, D21). -/
structure Widths where
  /-- `TS_W` -/
  ts : Nat
  /-- `TMO_W` -/
  tmo : Nat
  deriving DecidableEq, Repr, Inhabited

/-- What is chosen when an instance is made (R5, R40). `N`, `LOW_C`, `HIGH_C`, `G1`, `G2`, `D` and `L` follow from the
profile; they, and the values that R5 gives for the last three fields, are in `Machine/Parameters.lean`. -/
structure Config where
  /-- `PROFILE` (R6). -/
  profile : Profile
  /-- `RATE_C_PER_S` (R155). -/
  rate : Rate
  /-- `TempEncode` (R156). -/
  tempFormat : TempFormat
  /-- `TS_W` and `TMO_W` (R5). -/
  widths : Widths
  /-- `GAP_US`, a natural number of µs (R5, R75). -/
  gapUs : Nat
  /-- `THRESH_RESET`, a natural number below `2^TS_W` (R5, R28). -/
  threshReset : Nat
  deriving DecidableEq, Repr, Inhabited

/-- FREE VALUE (log 1). The choices the instance was made with that have no default: `PROFILE` and `RATE_C_PER_S` are
"none (must be given)", and `TempEncode` is `OPEN`. It has no body: nothing can be proved of it but its type. Its other
fields are not used. -/
opaque Config.constructed : Config

/-- FREE VALUE (log 10). A `TempEncode` other than the recommended one: any function from the exact temperature to 32
bits, one for each number. "the model assumes only that it is a function of `t` alone" (R156). -/
opaque Config.customEncode : Nat → Rat → DataWord

end Sys2Proof
end

