-- ==== Sys2Proof/Syntax.lean ====
section
/-! DEFINITION. The operations of the block (30_encoding.md R84), the words that arrive at its ports (R79, R80), the
outcomes of an operation (60_exceptions.md R200) and the lines of the script language (R89, R90). -/

namespace Sys2Proof

/-- The level of the data pin after an edge (R79). -/
inductive Level where
  | falling
  | rising
  deriving DecidableEq, Repr

/-- The seven operations, one constructor per row of `spec/opcode_table.json` (R84). `timestamp` and `now` are times in µs,
numbers of `TS_W` bits, and `timeoutMs` is a number of `TMO_W` bits (R83); `Instr.wf` says so. -/
inductive Instr where
  /-- `EDGE.FALL timestamp` (R110). -/
  | edgeFall (timestamp : Nat)
  /-- `EDGE.RISE timestamp` (R111). -/
  | edgeRise (timestamp : Nat)
  /-- `BEGIN attachOk` (R181). -/
  | beginOp (attachOk : Bool)
  /-- `END` (R182). -/
  | endOp
  /-- `TAKE` (R143). -/
  | take
  /-- `ISCONN now timeoutMs` (R173). -/
  | isconn (now : Nat) (timeoutMs : Nat)
  /-- `READ now timeoutMs` (R185). -/
  | read (now : Nat) (timeoutMs : Nat)
  deriving DecidableEq, Repr

/-- A word at one of the two ports: an EV word of `TS_W + 1` bits at the producer port (R79) or a CMD word of
`3 + TS_W + TMO_W` bits at the consumer port (R80), as the number its bits spell. -/
inductive PortWord where
  | ev (w : Nat)
  | cmd (w : Nat)
  deriving DecidableEq, Repr

/-- The two agents, one for each port (R12). -/
inductive Port where
  | producer
  | consumer
  deriving DecidableEq, Repr

/-- The port an operation is issued at (R84). -/
def Instr.port : Instr → Port
  | .edgeFall _ => .producer
  | .edgeRise _ => .producer
  | .beginOp _ => .consumer
  | .endOp => .consumer
  | .take => .consumer
  | .isconn _ _ => .consumer
  | .read _ _ => .consumer

/-- The outcomes of a consumer operation (R200). -/
inductive Status where
  | ok
  | notConnected
  | misreading
  | beginFailed
  | badOperation
  deriving DecidableEq, Repr

/-- One line of a script (R89) or a pseudo-operation (R90). Operands are the decimal numbers as written. -/
inductive ScriptLine where
  | fall (timestamp : Nat)
  | rise (timestamp : Nat)
  | beginLine (attachOk : Nat)
  | endLine
  | takeLine
  | isconnLine (now timeoutMs : Nat)
  | readLine (now timeoutMs : Nat)
  /-- `PULSE t w` (R90). -/
  | pulse (t w : Nat)
  /-- `FRAMEBITS t0 b1 … bL` (R90). -/
  | frameBits (t0 : Nat) (bits : List Nat)
  /-- `FRAME t0 payload control` (R90); `control` is 0 where the line gives none. -/
  | frame (t0 payload control : Nat)
  deriving DecidableEq, Repr

end Sys2Proof
end

