-- ==== Sys2Proof/Machine/Parameters.lean ====
section
/-! DEFINITION. The values that 00_scope.md R5 gives for the parameters with a default, and what follows from the profile
(R6). -/

namespace Sys2Proof

/-- `TS_W` = 32 and `TMO_W` = 32, the values of R5, for which R79 and R80 print the port formats. -/
def Widths.standard : Widths := ⟨32, 32⟩

/-- The configuration with the values of R5 for `TS_W`, `TMO_W`, `GAP_US` = 1000 and `THRESH_RESET` = 0, given those that
R5 leaves `OPEN`. -/
def Config.standard (profile : Profile) (rate : Rate) (tempFormat : TempFormat) : Config :=
  ⟨profile, rate, tempFormat, Widths.standard, 1000, 0⟩

/-- The configuration of `State.reset`: the values of R5 where it gives one, free values where it gives none (log 1,
log 2). -/
def Config.atReset : Config :=
  Config.standard Config.constructed.profile Config.constructed.rate Config.constructed.tempFormat

/-- `N`, the payload width in bits (R6). -/
def Profile.payloadWidth : Profile → Nat
  | .full11 => 11
  | .full14 => 14
  | .narrow11 => 11
  | .narrow14 => 14

/-- `G1`, the data bits before the first parity bit (R5). -/
def Profile.firstGroup (_ : Profile) : Nat := 9

/-- `G2`, the data bits between the two parity bits (R5, R6, 90_conflicts.md C3). -/
def Profile.secondGroup : Profile → Nat
  | .full11 => 4
  | .full14 => 5
  | .narrow11 => 4
  | .narrow14 => 5

/-- `D = G1 + G2`, the data bits of a frame (R5). -/
def Profile.dataBits (p : Profile) : Nat := p.firstGroup + p.secondGroup

/-- `L = D + 2`, the pulses of a frame after the start pulse (R5). -/
def Profile.pulses (p : Profile) : Nat := p.dataBits + 2

/-- `LOW_C`, the temperature of payload 0 in °C (R6). -/
def Profile.lowC : Profile → Int
  | .full11 => -50
  | .full14 => -50
  | .narrow11 => -10
  | .narrow14 => -10

/-- `HIGH_C`, the temperature of payload `2^N − 1` in °C (R6). -/
def Profile.highC : Profile → Int
  | .full11 => 150
  | .full14 => 150
  | .narrow11 => 60
  | .narrow14 => 60

/-- `2^N − 1`, the largest payload (R6). -/
def Profile.maxPayload (p : Profile) : Nat := 2 ^ p.payloadWidth - 1

/-- The 2-bit code of a profile (R6, decision D19). -/
def Profile.code : Profile → BitVec 2
  | .full11 => 0
  | .full14 => 1
  | .narrow11 => 2
  | .narrow14 => 3

/-- `RATE_C_PER_S` as the exact rational it stands for (R155). -/
def Rate.value (r : Rate) : Rat := (r.num : Rat) / ((r.denPred : Rat) + 1)

end Sys2Proof
end

