-- ==== Sys2Proof/Machine/Script.lean ====
section
/-! DEFINITION. The frame on the wire as a list of bits (30_encoding.md R71, R72, R74, R91), trains of pulses (R70), and
the script language with its pseudo-operations (R89, R90). None of this is state or step: it is how operations are
written down. -/

namespace Sys2Proof

/-- The low `k` bits of `v`, most significant first (R53, R72). -/
def msbFirst (v : Nat) : Nat → List Bool
  | 0 => []
  | k + 1 => v.testBit k :: msbFirst v k

/-- The exclusive or of a list of bits (R74). -/
def parityOf (bits : List Bool) : Bool := bits.foldl xor false

/-- The number that a list of bits spells, most significant first (R53). -/
def bitsValue (bits : List Bool) : Nat := bits.foldl (fun acc b => 2 * acc + b.toNat) 0

/-- `data = (control << N) | payload` (R91). -/
def frameData (p : Profile) (payload control : Nat) : Nat := control * 2 ^ p.payloadWidth + payload

/-- The data bits of the first and of the second group, in the order sent (R72, R91). -/
def firstGroupBits (p : Profile) (data : Nat) : List Bool := msbFirst (data / 2 ^ p.secondGroup) p.firstGroup

/-- The data bits of the second group (R72, R91). -/
def secondGroupBits (p : Profile) (data : Nat) : List Bool := msbFirst data p.secondGroup

/-- The bit list of a frame: the first group, its parity bit, the second group, its parity bit (R91). -/
def frameBitList (p : Profile) (data : Nat) : List Bool :=
  firstGroupBits p data ++ parityOf (firstGroupBits p data) ::
    (secondGroupBits p data ++ [parityOf (secondGroupBits p data)])

/-- `t + d`, as the `TS_W` bits of the platform's counter show it (R220). -/
def Widths.later (k : Widths) (t d : Nat) : Nat := (t + d) % 2 ^ k.ts

/-- A train of pulses after an edge at time `t`: for each pair `(high, low)` a falling edge `high` µs after the edge
before it and a rising edge `low` µs after that one. `low` is the pulse width (R70, R15). -/
def pulseTrain (k : Widths) (t : Nat) : List (Nat × Nat) → List Instr
  | [] => []
  | (high, low) :: rest =>
    .edgeFall (k.later t high) :: .edgeRise (k.later (k.later t high) low) ::
      pulseTrain k (k.later (k.later t high) low) rest

/-- The time of the last edge of `pulseTrain k t` (`t` itself when there is none). -/
def pulseTrainEnd (k : Widths) (t : Nat) : List (Nat × Nat) → Nat
  | [] => t
  | (high, low) :: rest => pulseTrainEnd k (k.later (k.later t high) low) rest

/-- The edges of a frame whose opening gap ends with a falling edge at `t0`: that edge, the rising edge that ends the
start pulse of width `start`, and the pulses (R71). -/
def frameEdges (k : Widths) (t0 start : Nat) (pulses : List (Nat × Nat)) : List Instr :=
  .edgeFall t0 :: .edgeRise (k.later t0 start) :: pulseTrain k (k.later t0 start) pulses

/-! ### The script language (R89, R90) -/

/-- `START_W`, `ONE_W`, `ZERO_W`, `PERIOD`: constants of the test scripts, not of the hardware (R90). -/
def scriptStartW : Nat := 60
def scriptOneW : Nat := 30
def scriptZeroW : Nat := 90
def scriptPeriod : Nat := 125

/-- The width with which a script sends a bit (R90). -/
def scriptWidth (b : Nat) : Nat := if b = 1 then scriptOneW else scriptZeroW

/-- `PULSE t w` is `FALL t` and `RISE t + w` (R90). -/
def expandPulse (t w : Nat) : List ScriptLine := [.fall t, .rise (t + w)]

/-- The pulses `k`, `k + 1`, … of a `FRAMEBITS` (R90). -/
def expandBits (t0 : Nat) : Nat → List Nat → List ScriptLine
  | _, [] => []
  | k, b :: rest => expandPulse (t0 + k * scriptPeriod) (scriptWidth b) ++ expandBits t0 (k + 1) rest

/-- `FRAMEBITS t0 b1 … bL` (R90). -/
def expandFrameBits (t0 : Nat) (bits : List Nat) : List ScriptLine :=
  expandPulse t0 scriptStartW ++ expandBits t0 1 bits

/-- The bit list of a frame as the script writes it. -/
def scriptFrameBits (p : Profile) (payload control : Nat) : List Nat :=
  (frameBitList p (frameData p payload control)).map Bool.toNat

/-- A line without its pseudo-operation: a list of plain lines (R90). -/
def ScriptLine.expand (p : Profile) : ScriptLine → List ScriptLine
  | .pulse t w => expandPulse t w
  | .frameBits t0 bits => expandFrameBits t0 bits
  | .frame t0 payload control => expandFrameBits t0 (scriptFrameBits p payload control)
  | line => [line]

/-- The operation a plain line stands for (R89); none for a pseudo-operation. -/
def ScriptLine.toInstr : ScriptLine → Option Instr
  | .fall t => some (.edgeFall t)
  | .rise t => some (.edgeRise t)
  | .beginLine a => some (.beginOp (a == 1))
  | .endLine => some .endOp
  | .takeLine => some .take
  | .isconnLine n m => some (.isconn n m)
  | .readLine n m => some (.read n m)
  | .pulse _ _ => none
  | .frameBits _ _ => none
  | .frame _ _ _ => none

/-- The operations of a script (R89, R90). -/
def assemble (p : Profile) (lines : List ScriptLine) : List Instr :=
  (lines.flatMap (ScriptLine.expand p)).filterMap ScriptLine.toInstr

/-! ### The text of a line (R89; log 13) -/

/-- The text up to a `#` (R89). -/
def dropComment : List Char → List Char
  | [] => []
  | c :: rest => if c = '#' then [] else c :: dropComment rest

/-- The words of a line, separated by blanks and tabs. -/
def tokensFrom : List Char → List Char → List (List Char)
  | [], [] => []
  | word, [] => [word]
  | [], c :: rest => if c = ' ' || c = '\t' then tokensFrom [] rest else tokensFrom [c] rest
  | word, c :: rest => if c = ' ' || c = '\t' then word :: tokensFrom [] rest else tokensFrom (word ++ [c]) rest

/-- One decimal digit. -/
def digitOf (c : Char) : Option Nat := if '0' ≤ c ∧ c ≤ '9' then some (c.toNat - 48) else none

/-- A decimal operand, given what the digits read so far stand for. -/
def decimalFrom : Nat → List Char → Option Nat
  | acc, [] => some acc
  | acc, c :: rest => (digitOf c).bind (fun d => decimalFrom (10 * acc + d) rest)

/-- A decimal operand (R89); none for an empty word. -/
def decimalOf : List Char → Option Nat
  | [] => none
  | c :: rest => decimalFrom 0 (c :: rest)

/-- A string of bits, most significant first. -/
def bitString : List Char → Option (List Nat)
  | [] => some []
  | c :: rest =>
    if c = '0' then (bitString rest).map (0 :: ·)
    else if c = '1' then (bitString rest).map (1 :: ·)
    else none

/-- The line that a list of words stands for (R89, R90); none for text that is no line. -/
def lineOfTokens : List (List Char) → Option ScriptLine
  | [['F', 'A', 'L', 'L'], t] => (decimalOf t).map .fall
  | [['R', 'I', 'S', 'E'], t] => (decimalOf t).map .rise
  | [['B', 'E', 'G', 'I', 'N'], a] => (decimalOf a).map .beginLine
  | [['E', 'N', 'D']] => some .endLine
  | [['T', 'A', 'K', 'E']] => some .takeLine
  | [['I', 'S', 'C', 'O', 'N', 'N'], n, m] => (decimalOf n).bind (fun a => (decimalOf m).map (.isconnLine a))
  | [['R', 'E', 'A', 'D'], n, m] => (decimalOf n).bind (fun a => (decimalOf m).map (.readLine a))
  | [['P', 'U', 'L', 'S', 'E'], t, w] => (decimalOf t).bind (fun a => (decimalOf w).map (.pulse a))
  | ['F', 'R', 'A', 'M', 'E', 'B', 'I', 'T', 'S'] :: t :: bits =>
    (decimalOf t).bind (fun a => (bitString bits.flatten).map (.frameBits a))
  | [['F', 'R', 'A', 'M', 'E'], t, v] => (decimalOf t).bind (fun a => (decimalOf v).map (fun b => .frame a b 0))
  | [['F', 'R', 'A', 'M', 'E'], t, v, c] =>
    (decimalOf t).bind (fun a => (decimalOf v).bind (fun b => (decimalOf c).map (.frame a b)))
  | _ => none

/-- What one line of text holds: nothing (a blank line or a comment), or a script line; none for text that is neither. -/
def parseLine (text : List Char) : Option (List ScriptLine) :=
  match tokensFrom [] (dropComment text) with
  | [] => some []
  | words => (lineOfTokens words).map (fun l => [l])

end Sys2Proof
end

