-- ==== Sys2Proof/WellFormed.lean ====
section
/-! DEFINITION. Well-formed configurations, operations, port words and script lines. -/

namespace Sys2Proof

/-- `TS_W` and `TMO_W` are positive (92_eei_decisions.md, the table of open parameters). -/
def Widths.wf (k : Widths) : Bool := decide (0 < k.ts) && decide (0 < k.tmo)

/-- `THRESH_RESET` is "natural below 2^TS_W"; the widths are positive (92_eei_decisions.md, the same table). -/
def Config.wf (c : Config) : Bool := c.widths.wf && decide (c.threshReset < 2 ^ c.widths.ts)

/-- A time fits its field of `TS_W` bits (R79, R80, R83). -/
def Widths.fitsTime (k : Widths) (n : Nat) : Bool := decide (n < 2 ^ k.ts)

/-- A timeout fits its field of `TMO_W` bits (R80, R83). -/
def Widths.fitsTimeout (k : Widths) (n : Nat) : Bool := decide (n < 2 ^ k.tmo)

/-- An operation is well formed when each operand fits its field (R79, R80). No value that fits is reserved. -/
def Instr.wf (k : Widths) : Instr → Bool
  | .edgeFall t => k.fitsTime t
  | .edgeRise t => k.fitsTime t
  | .beginOp _ => true
  | .endOp => true
  | .take => true
  | .isconn n m => k.fitsTime n && k.fitsTimeout m
  | .read n m => k.fitsTime n && k.fitsTimeout m

/-- A port word has the bits of its format and no more (R79, R80). -/
def PortWord.wf (k : Widths) : PortWord → Bool
  | .ev w => decide (w < 2 ^ (k.ts + 1))
  | .cmd w => decide (w < 2 ^ (3 + k.ts + k.tmo))

/-- A bit list of a `FRAMEBITS` has one entry for each of the `L` pulses, each 0 or 1 (R90). -/
def frameBitsOk (p : Profile) (bits : List Nat) : Bool :=
  decide (bits.length = p.pulses) && bits.all (fun b => decide (b ≤ 1))

/-- The last edge of a frame, which starts at `t0`, has a timestamp that fits its field (R90). -/
def frameTimeOk (c : Config) (t0 : Nat) : Bool :=
  c.widths.fitsTime (t0 + c.profile.pulses * scriptPeriod + scriptZeroW)

/-- The operands of a line are in their ranges (R89, R90, R91). -/
def ScriptLine.wf (c : Config) : ScriptLine → Bool
  | .fall t => c.widths.fitsTime t
  | .rise t => c.widths.fitsTime t
  | .beginLine a => decide (a ≤ 1)
  | .endLine => true
  | .takeLine => true
  | .isconnLine n m => c.widths.fitsTime n && c.widths.fitsTimeout m
  | .readLine n m => c.widths.fitsTime n && c.widths.fitsTimeout m
  | .pulse t w => c.widths.fitsTime (t + w)
  | .frameBits t0 bits => frameBitsOk c.profile bits && frameTimeOk c t0
  | .frame t0 payload control =>
    decide (payload < 2 ^ c.profile.payloadWidth) &&
      decide (control < 2 ^ (c.profile.dataBits - c.profile.payloadWidth)) && frameTimeOk c t0

end Sys2Proof
end

