-- ==== Sys2Proof/Decode.lean ====
section
/-! DEFINITION. From port words to operations and back (30_encoding.md R79, R80, R84, R85), and the numbering of
`spec/opcode_table.json`. The formats are written for any `TS_W` and `TMO_W`; with both 32 the fields stand where R79 and
R80 print them (log 2). -/

namespace Sys2Proof

/-- What a port word stands for: an operation, or a command with a reserved `op`, which is rejected by name and answered
with `BadOperation` (R85). -/
inductive Decoded where
  | instr (i : Instr)
  | reservedOp (op : BitVec 3)
  deriving DecidableEq, Repr

/-- `EV[TS_W]`, the level after the edge: 1 rising, 0 falling (R79). -/
def evLevel (k : Widths) (w : Nat) : Level := if w / 2 ^ k.ts % 2 = 1 then .rising else .falling

/-- `EV[TS_W−1:0]` (R79). -/
def evTimestamp (k : Widths) (w : Nat) : Nat := w % 2 ^ k.ts

/-- `op`, the three highest bits of a CMD word (R80). -/
def cmdOp (k : Widths) (w : Nat) : BitVec 3 := BitVec.ofNat 3 (w / 2 ^ (k.ts + k.tmo))

/-- `now`, the `TS_W` bits below `op` (R80). -/
def cmdNow (k : Widths) (w : Nat) : Nat := w / 2 ^ k.tmo % 2 ^ k.ts

/-- `timeoutMs`, the `TMO_W` lowest bits (R80). -/
def cmdTimeout (k : Widths) (w : Nat) : Nat := w % 2 ^ k.tmo

/-- `CMD[0]`, the `attachOk` of `BEGIN` (R80). -/
def cmdAttachOk (w : Nat) : Bool := decide (w % 2 = 1)

/-- The operation of an EV word: every one is legal (R79). -/
def decodeEv (k : Widths) (w : Nat) : Instr :=
  match evLevel k w with
  | .falling => .edgeFall (evTimestamp k w)
  | .rising => .edgeRise (evTimestamp k w)

/-- The operation of a CMD word (R80, R84); `op` 5, 6 and 7 are reserved (R85). -/
def decodeCmd (k : Widths) (w : Nat) : Decoded :=
  match (cmdOp k w).toNat with
  | 0 => .instr (.beginOp (cmdAttachOk w))
  | 1 => .instr .endOp
  | 2 => .instr .take
  | 3 => .instr (.isconn (cmdNow k w) (cmdTimeout k w))
  | 4 => .instr (.read (cmdNow k w) (cmdTimeout k w))
  | _ => .reservedOp (cmdOp k w)

/-- The decoder: total on every port word. A port has no wire for a bit above its format, and none is looked at. -/
def decode (k : Widths) : PortWord → Decoded
  | .ev w => .instr (decodeEv k w)
  | .cmd w => decodeCmd k w

/-- Put the fields of an EV word together: `level << TS_W | timestamp` (R79). -/
def packEv (k : Widths) (level : BitVec 1) (timestamp : Nat) : Nat := level.toNat * 2 ^ k.ts + timestamp

/-- Put the fields of a CMD word together: `op`, then `now`, then `timeoutMs` (R80). -/
def packCmd (k : Widths) (op : BitVec 3) (now : Nat) (timeoutMs : Nat) : Nat :=
  op.toNat * 2 ^ (k.ts + k.tmo) + now * 2 ^ k.tmo + timeoutMs

/-- The encoder. Bits that an operation ignores (R80) are written 0 (log 9). -/
def encode (k : Widths) : Instr → PortWord
  | .edgeFall t => .ev (packEv k 0 t)
  | .edgeRise t => .ev (packEv k 1 t)
  | .beginOp a => .cmd (packCmd k 0 0 a.toNat)
  | .endOp => .cmd (packCmd k 1 0 0)
  | .take => .cmd (packCmd k 2 0 0)
  | .isconn n m => .cmd (packCmd k 3 n m)
  | .read n m => .cmd (packCmd k 4 n m)

/-- The port word of a row of `spec/opcode_table.json`, which is written for `TS_W` = `TMO_W` = 32: a 33-bit row (40 bits
in whole bytes) is an EV word, a 67-bit row (72 bits) a CMD word. A number that does not fit the row's width is no word of
the row (log 8). -/
def portWordOf (nbits w : Nat) : Option PortWord :=
  if 33 ≤ nbits ∧ nbits ≤ 40 then
    if w < 2 ^ 33 then some (.ev w) else none
  else if 67 ≤ nbits ∧ nbits ≤ 72 then
    if w < 2 ^ 67 then some (.cmd w) else none
  else none

/-- The operation of a decoded word; none where the word is rejected. -/
def Decoded.toInstr : Decoded → Option Instr
  | .instr i => some i
  | .reservedOp _ => none

/-- The operation that the decoder reads from a row's word, in the table's numbering. -/
def decodeTableWord (nbits w : Nat) : Option Instr :=
  (portWordOf nbits w).bind (fun p => (decode Widths.standard p).toInstr)

end Sys2Proof
end

