-- ==== Sys2Proof/Machine/State.lean ====
section
/-! DEFINITION. The state of one instance (10_state.md R20 to R43), its reset value, and the types of faults and
refusals. -/

namespace Sys2Proof.Machine

/-- The values of the register `phase` (R22). The codes 6 and 7 are unrepresentable, as R87 asks. -/
inductive Phase where
  /-- No start condition seen since reset or since the last `BEGIN`. -/
  | idle
  /-- A start condition was seen; the next pulse is the start pulse. -/
  | startDetected
  /-- The next pulse is data bit number `bitPosition`. -/
  | receiving
  /-- The next pulse is a parity bit. -/
  | parityCheck
  /-- A valid frame was published; waiting for a start condition. -/
  | frameComplete
  /-- A parity mismatch occurred; waiting for a start condition. -/
  | frameError
  deriving DecidableEq, Repr

/-- One RawFrame entry, the unit of the block's memory (R29, R50). -/
structure RawFrame where
  bits : FrameBits
  valid : Bool
  deriving DecidableEq, Repr

/-- The frame buffer, the one address space of the block: two locations of one RawFrame each (20_memory.md R50). There
are no bytes (R53), so this is not a list of byte cells (log 5). -/
structure Memory where
  /-- `buf[0]` -/
  buf0 : RawFrame
  /-- `buf[1]` -/
  buf1 : RawFrame
  deriving DecidableEq, Repr

/-- The state: the configuration (R40), the registers of R20 in the order of its table, and the model's two queues. -/
structure State where
  /-- The configuration, which no operation changes (R40, R219; log 1). -/
  cfg : Config
  /-- R22. -/
  phase : Phase
  /-- R23. -/
  bitPosition : Nat
  /-- The register is a bounded number: no value above `D` is a state, as R87 asks (log 7). -/
  positionBound : bitPosition ≤ cfg.profile.dataBits := by decide
  /-- R24. -/
  parityAccumulator : Bool
  /-- R25. -/
  accumulator : FrameBits
  /-- R26. -/
  lastEdgeValid : Bool
  /-- R27. -/
  lastEdgeTimestamp : Nat
  /-- R28. -/
  thresholdMicros : Nat
  /-- `buf[0]` and `buf[1]` (R29, R50). -/
  buf : Memory
  /-- R30. -/
  visibleIdx : BitVec 1
  /-- R31. -/
  hbValid : Bool
  /-- R32. -/
  lastHeartbeatTimestamp : Nat
  /-- R33. -/
  repValid : Bool
  /-- R34. -/
  lastReportedPayload : FrameBits
  /-- R35. -/
  lastReportedTimestamp : Nat
  /-- R36. -/
  armed : Bool
  /-- MODEL (log 3): the port words that the environment has yet to deliver, in the total order of R59, oldest first. -/
  pending : List PortWord
  /-- MODEL (log 4): the RSP words returned so far, oldest first, the observation of R16. -/
  responses : List RspWord
  deriving DecidableEq, Repr

/-- The faults of the block: none. "No operation faults, hangs or blocks" (00_scope.md R14); nothing in the pulse stream
"can make the block fault" (30_encoding.md R88). Nobody raises a fault (log 12). -/
inductive Fault where
  deriving DecidableEq, Repr

/-- The refusals. -/
inductive Refusal where
  /-- An operation whose meaning is not written, raised only by an arm of `exec`. It is safe: no state follows. No arm
  raises it now. -/
  | notModelled (mnemonic : String)
  deriving DecidableEq, Repr

/-- The machine right after reset, for one choice of the configuration (R43, R231, R16). Every register has the value that
the spec gives it; the two queues are empty (log 3, log 4). -/
def State.resetWith (c : Config) : State where
  cfg := c
  phase := .idle
  bitPosition := 0
  positionBound := Nat.zero_le _
  parityAccumulator := false
  accumulator := 0
  lastEdgeValid := false
  lastEdgeTimestamp := 0
  thresholdMicros := c.threshReset
  buf := ⟨⟨0, false⟩, ⟨0, false⟩⟩
  visibleIdx := 0
  hbValid := false
  lastHeartbeatTimestamp := 0
  repValid := false
  lastReportedPayload := 0
  lastReportedTimestamp := 0
  armed := false
  pending := []
  responses := []

/-- The machine right after reset, with the parameters that R5 gives and a free choice of the others (log 1, log 2). -/
def State.reset : State := State.resetWith Config.atReset

end Sys2Proof.Machine
end

