-- ==== Sys2Proof/Machine/Operands.lean ====
section
/-! DEFINITION. Operand assembly and bit fields (00_scope.md R7, R10; 30_encoding.md R81 to R83; 10_state.md R22). -/

namespace Sys2Proof.Machine

/-- `v mod 2^k` in a 14-bit register (R7). -/
def lowBits (k : Nat) (v : FrameBits) : FrameBits := BitVec.ofNat 14 (v.toNat % 2 ^ k)

/-- `Interval(a, b) = (a − b) mod 2^TS_W` (R10). -/
def interval (k : Widths) (a b : Nat) : Nat := (((a : Int) - (b : Int)) % ((2 ^ k.ts : Nat) : Int)).toNat

/-- `timeoutMs * 1000` over the naturals, never truncated (R11, R83). -/
def timeoutMicros (timeoutMs : Nat) : Nat := timeoutMs * 1000

/-- `((accumulator << 1) | b) mod 2^D` (R118). -/
def shiftIn (p : Profile) (accumulator : FrameBits) (b : Bool) : FrameBits :=
  lowBits p.dataBits ((accumulator <<< 1) ||| BitVec.ofNat 14 b.toNat)

/-- `bitPosition + 1` (R118), within the bound of R23 and R87. In every state with the invariants a data pulse finds
`bitPosition` below `D` (R42 (b)), so that the other case arises only where no rule gives a meaning (log 7). -/
def nextPosition (p : Profile) (position : Nat) : Nat := if position < p.dataBits then position + 1 else position

theorem nextPosition_le (p : Profile) (position : Nat) (h : position ≤ p.dataBits) :
    nextPosition p position ≤ p.dataBits := by
  unfold nextPosition
  split <;> omega

/-- `Payload(bits) = bits[N−1:0]` (R82, R152). -/
def payloadOf (p : Profile) (bits : FrameBits) : FrameBits := lowBits p.payloadWidth bits

/-- The 3-bit code of a phase (R22). -/
def Phase.code : Phase → BitVec 3
  | .idle => 0
  | .startDetected => 1
  | .receiving => 2
  | .parityCheck => 3
  | .frameComplete => 4
  | .frameError => 5

/-- The status code of an outcome, `RSP[34:32]` (R81, R200). -/
def statusCode : Status → BitVec 3
  | .ok => 0
  | .notConnected => 1
  | .misreading => 2
  | .beginFailed => 3
  | .badOperation => 4

/-- The RSP word: `status << 32 | data` (R81). -/
def packRsp (st : Status) (data : DataWord) : RspWord :=
  BitVec.ofNat 35 ((statusCode st).toNat * 2 ^ 32 + data.toNat)

/-- The `data` of a `TAKE`: `data[31]` = `valid`, `data[30:D]` = 0, `data[D−1:0]` = `bits` (R81). -/
def takeData (p : Profile) (e : RawFrame) : DataWord :=
  BitVec.ofNat 32 (e.valid.toNat * 2 ^ 31 + (lowBits p.dataBits e.bits).toNat)

/-- The `data` of an `ISCONN`: `data[0]` = 1 if connected else 0, the rest 0 (R81). -/
def boolData (b : Bool) : DataWord := BitVec.ofNat 32 b.toNat

end Sys2Proof.Machine
end

