-- ==== Sys2Proof/Machine/Flags.lean ====
section
/-! DEFINITION. The one-bit tests of the producer side: the gap, the classified bit, the parity, the parity positions. -/

namespace Sys2Proof.Machine

/-- The gap test, strict: `interval > GAP_US` (R75, R114). -/
def isGap (c : Config) (w : Nat) : Bool := decide (c.gapUs < w)

/-- `classify(w) = 1 if w < thresholdMicros else 0`, unsigned and strict (R102). A short pulse is a 1 (R73,
90_conflicts.md C1). -/
def classify (w threshold : Nat) : Bool := decide (w < threshold)

/-- The running parity takes a data bit: `parityAccumulator ^ b` (R118). -/
def parityWith (parity b : Bool) : Bool := parity ^^ b

/-- Is `position` a parity position: `G1` or `D` (R119). -/
def isParityPosition (p : Profile) (position : Nat) : Bool :=
  position == p.firstGroup || position == p.dataBits

/-- Is `position` the final parity position, `D` (R122). -/
def isFinalPosition (p : Profile) (position : Nat) : Bool := position == p.dataBits

end Sys2Proof.Machine
end

