-- ==== Sys2Proof/Machine/Ops.lean ====
section
/-! DEFINITION. The shared operations: access to the frame buffer, responses, the raising of a non-OK outcome, and the
entry to and exit from the error phase. -/

namespace Sys2Proof.Machine

/-! ### The frame buffer (20_memory.md R50 to R58) -/

/-- `MemRead(i, 1)`: the whole entry, with no side effect (R55). -/
def Memory.read (m : Memory) (i : BitVec 1) : RawFrame := if i = 0 then m.buf0 else m.buf1

/-- `MemWrite(i, 1, e)`: both fields of the entry together (R55). -/
def Memory.write (m : Memory) (i : BitVec 1) (e : RawFrame) : Memory :=
  if i = 0 then ⟨e, m.buf1⟩ else ⟨m.buf0, e⟩

/-- The canonical form of the buffer: an entry has `D` bits (R29, R50). -/
def Memory.wf (p : Profile) (m : Memory) : Bool :=
  decide (m.buf0.bits.toNat < 2 ^ p.dataBits) && decide (m.buf1.bits.toNat < 2 ^ p.dataBits)

/-- The address that a `publish` stores to: the write entry, `1 − visibleIdx` (R51). -/
def State.writeIdx (s : State) : BitVec 1 := 1 - s.visibleIdx

/-- The consumer-visible entry, `buf[visibleIdx]` (R30, R51). -/
def State.visible (s : State) : RawFrame := s.buf.read s.visibleIdx

/-- `publish(bits, valid)`: write the write entry, then make it the visible one (R141). -/
def publish (bits : FrameBits) (valid : Bool) (s : State) : State :=
  { s with buf := s.buf.write s.writeIdx ⟨bits, valid⟩, visibleIdx := s.writeIdx }

/-- `recordFrame(timestamp)` (R170). -/
def recordFrame (timestamp : Nat) (s : State) : State :=
  { s with hbValid := true, lastHeartbeatTimestamp := timestamp }

/-! ### Responses and outcomes (30_encoding.md R81, 60_exceptions.md R200) -/

/-- `return v`: the OK result, with the response `data` (R8, R81). -/
def respond (data : DataWord) (s : State) : State := { s with responses := s.responses ++ [packRsp .ok data] }

/-- `raise <Outcome>`: TAKING AN EXCEPTION of the consumer port. The response carries the status code and data 0, and
nothing else changes (R8, R200). -/
def raise (st : Status) (s : State) : State := { s with responses := s.responses ++ [packRsp st 0] }

/-! ### The error phase (60_exceptions.md R213 to R215) -/

/-- Entry to `FRAME_ERROR`: publish the accumulator as invalid; keep `accumulator`, `bitPosition`,
`parityAccumulator`, the threshold and the heartbeat (R213, R123). -/
def enterFrameError (s : State) : State := publish s.accumulator false { s with phase := .frameError }

/-- A start condition, from any phase: the only exit from `FRAME_ERROR` but `BEGIN` (R114, R215). -/
def startCondition (s : State) : State :=
  { s with
    phase := .startDetected, accumulator := 0, parityAccumulator := false
    bitPosition := 0, positionBound := Nat.zero_le _ }

end Sys2Proof.Machine
end

