-- ==== Sys2Proof/Machine/ConnectionMonitor.lean ====
section
/-! DEFINITION. The ConnectionMonitor (44_connection_monitor.md). `recordFrame` is in `Ops.lean`. -/

namespace Sys2Proof.Machine

/-- `Connected(now, timeoutMs)` (R172). -/
def connected (s : State) (now : Nat) (timeoutMs : Nat) : Bool :=
  if s.hbValid = false then false
  else decide (interval s.cfg.widths now s.lastHeartbeatTimestamp ≤ timeoutMicros timeoutMs)

/-- `ISCONN now timeoutMs` (R173). -/
def execIsconn (now : Nat) (timeoutMs : Nat) (s : State) : Host.Outcome State Fault Refusal :=
  .next (respond (boolData (connected s now timeoutMs)) s)

end Sys2Proof.Machine
end

