-- ==== Sys2Proof/Machine/TempEncode.lean ====
section
/-! DEFINITION. `TempEncode` (43_temperature_decoder.md R156): the recommended instance, IEEE 754 binary32 with one
rounding to nearest, ties to even (93_implementation_defined.md K3), and the free functions of `Config`. -/

namespace Sys2Proof.Machine

/-- `num / den` rounded to the nearest natural number, ties to the even one (K3). -/
def roundHalfEven (num den : Nat) : Nat :=
  let q := num / den
  let r := num % den
  if 2 * r < den then q else if den < 2 * r then q + 1 else q + q % 2

/-- The exponent `e` with `2^e <= num/den < 2^(e+1)`, for positive `num` and `den`. -/
def binaryExponent (num den : Nat) : Int :=
  let guess : Int := (num.log2 : Int) - (den.log2 : Int)
  let below : Bool := if 0 ≤ guess then decide (num < den * 2 ^ guess.toNat) else decide (num * 2 ^ (-guess).toNat < den)
  if below then guess - 1 else guess

/-- The quotient `num/den` in units of `2^shift`, rounded once (K3). -/
def scaledRound (num den : Nat) (shift : Int) : Nat :=
  if 0 ≤ shift then roundHalfEven num (den * 2 ^ shift.toNat) else roundHalfEven (num * 2 ^ (-shift).toNat) den

/-- The exponent and fraction fields of the binary32 nearest to `num/den`, as one number: `8` exponent bits with bias
127 above `23` fraction bits (K3). A carry out of the fraction raises the exponent, as the format wants. Below the normal
range the unit is `2^-149`; at or above the overflow threshold the result is the infinity, `0x7F800000`. -/
def binary32Magnitude (num den : Nat) : Nat :=
  if num = 0 then 0
  else
    let e := max (binaryExponent num den) (-126)
    let m := scaledRound num den (e - 23)
    min ((e + 126).toNat * 2 ^ 23 + m) 0x7F800000

/-- The binary32 word of an exact rational (R156, K3). -/
def binary32 (t : Rat) : DataWord :=
  BitVec.ofNat 32 ((decide (t.num < 0)).toNat * 2 ^ 31 + binary32Magnitude t.num.natAbs t.den)

/-- `TempEncode(t)` (R156). -/
def tempEncode (f : TempFormat) (t : Rat) : DataWord :=
  match f with
  | .binary32 => binary32 t
  | .custom id => Config.customEncode id t

end Sys2Proof.Machine
end

