-- ==== Sys2Proof/Machine/TemperatureDecoder.lean ====
section
/-! DEFINITION. The TemperatureDecoder (43_temperature_decoder.md), in exact rational arithmetic (00_scope.md R11). -/

namespace Sys2Proof.Machine

/-- `TempOf(p) = LOW_C + p * (HIGH_C − LOW_C) / (2^N − 1)`, exact (R153). -/
def tempOf (p : Profile) (payload : Nat) : Rat :=
  (p.lowC : Rat) + (payload : Rat) * ((p.highC : Rat) - (p.lowC : Rat)) / (p.maxPayload : Rat)

/-- The payload that encodes a temperature: the integer nearest to `(t − LOW_C) * (2^N − 1) / (HIGH_C − LOW_C)`
(30_encoding.md R91). Of two equally near ones it is the greater (log 13). Nothing in the block computes it. -/
def payloadFor (p : Profile) (t : Rat) : Nat :=
  ((t - (p.lowC : Rat)) * (p.maxPayload : Rat) / ((p.highC : Rat) - (p.lowC : Rat)) + 1 / 2).floor.toNat

/-- `Decode(bits, valid)`: the temperature, or none for `Misreading` (R154). -/
def decodeFrame (p : Profile) (e : RawFrame) : Option Rat :=
  if e.valid = false then none else some (tempOf p (payloadOf p e.bits).toNat)

/-- `lastReportedTempC`, which is derived and not stored (10_state.md R21 (d), R34). -/
def State.lastReportedTempC (s : State) : Option Rat :=
  if s.repValid = false then none else some (tempOf s.cfg.profile s.lastReportedPayload.toNat)

/-- `abs(a − b)` (R155). -/
def absDiff (a b : Rat) : Rat := if a ≤ b then b - a else a - b

/-- `Plausible(t, now)`: no reference yet, or `abs(t − prev) * 1000000 <= RATE_C_PER_S * dt` (R155). -/
def plausible (s : State) (t : Rat) (now : Nat) : Bool :=
  if s.repValid = false then true
  else
    let dt := interval s.cfg.widths now s.lastReportedTimestamp
    let prev := tempOf s.cfg.profile s.lastReportedPayload.toNat
    decide (absDiff t prev * 1000000 ≤ s.cfg.rate.value * (dt : Rat))

/-- `DecodeChecked(bits, valid, now)`: the temperature, or none for `Misreading`, from either cause (R158). -/
def decodeChecked (s : State) (e : RawFrame) (now : Nat) : Option Rat :=
  match decodeFrame s.cfg.profile e with
  | none => none
  | some t => if plausible s t now then some t else none

/-- The reported reading becomes the reference (R159). -/
def recordReport (payload : FrameBits) (now : Nat) (s : State) : State :=
  { s with repValid := true, lastReportedPayload := payload, lastReportedTimestamp := now }

end Sys2Proof.Machine
end

