-- ==== Sys2Proof/Machine/Control.lean ====
section
/-! DEFINITION. The control and read operations (45_control_and_read.md) and the answer to a reserved command
(30_encoding.md R85). -/

namespace Sys2Proof.Machine

/-- The start of a session: armed, `IDLE`, no previous edge; all else is kept (R181). -/
def startSession (s : State) : State := { s with armed := true, phase := .idle, lastEdgeValid := false }

/-- `BEGIN attachOk` (R181). -/
def execBegin (attachOk : Bool) (s : State) : Host.Outcome State Fault Refusal :=
  if attachOk = false then .next (raise .beginFailed s) else .next (respond 0 (startSession s))

/-- `END` (R182). -/
def execEnd (s : State) : Host.Outcome State Fault Refusal := .next (respond 0 { s with armed := false })

/-- `READ now timeoutMs`: connection first, then validity, then plausibility (R185, R210). -/
def execRead (now : Nat) (timeoutMs : Nat) (s : State) : Host.Outcome State Fault Refusal :=
  if connected s now timeoutMs = false then .next (raise .notConnected s)
  else
    match decodeChecked s s.visible now with
    | none => .next (raise .misreading s)
    | some t =>
      .next (respond (tempEncode s.cfg.tempFormat t) (recordReport (payloadOf s.cfg.profile s.visible.bits) now s))

/-- A command with a reserved `op`: `BadOperation`, no other change (R85, R203). -/
def execReserved (s : State) : Host.Outcome State Fault Refusal := .next (raise .badOperation s)

end Sys2Proof.Machine
end

