-- ==== Sys2Proof/Machine/BitWindow.lean ====
section
/-! DEFINITION. The BitWindowEstimator (40_bit_window.md). `classify` is in `Flags.lean`. -/

namespace Sys2Proof.Machine

/-- The new threshold: `(w + (thresholdMicros >> 2)) mod 2^TS_W` (R101). -/
def nextThreshold (k : Widths) (w threshold : Nat) : Nat := (w + (threshold >>> 2)) % 2 ^ k.ts

/-- `observeStartPulse(w)` (R101). -/
def observeStartPulse (w : Nat) (s : State) : State :=
  { s with thresholdMicros := nextThreshold s.cfg.widths w s.thresholdMicros }

end Sys2Proof.Machine
end

