-- ==== Sys2Proof/Machine/FrameAssembler.lean ====
section
/-! DEFINITION. The FrameAssembler and the two producer operations (41_frame_assembler.md). The order of the tests is
that of R112; the whole is R128. -/

namespace Sys2Proof.Machine

/-- The first event since start: recorded and discarded (R113). -/
def recordFirstEdge (timestamp : Nat) (s : State) : State :=
  { s with lastEdgeTimestamp := timestamp, lastEdgeValid := true }

/-- The start pulse calibrates the threshold and contributes no bit (R117). -/
def takeStartPulse (w : Nat) (s : State) : State := { observeStartPulse w s with phase := .receiving }

/-- A data pulse: shift the classified bit in, and stop at a parity position (R118, R119). -/
def takeDataPulse (w : Nat) (s : State) : State :=
  let b := classify w s.thresholdMicros
  let position := nextPosition s.cfg.profile s.bitPosition
  { s with
    accumulator := shiftIn s.cfg.profile s.accumulator b
    parityAccumulator := parityWith s.parityAccumulator b
    bitPosition := position
    positionBound := nextPosition_le _ _ s.positionBound
    phase := if isParityPosition s.cfg.profile position then .parityCheck else .receiving }

/-- The first parity check matched: the second group follows (R121). -/
def passFirstParity (s : State) : State := { s with parityAccumulator := false, phase := .receiving }

/-- The final parity check matched: publish a valid frame and record its time (R122). -/
def completeFrame (timestamp : Nat) (s : State) : State :=
  recordFrame timestamp (publish s.accumulator true { s with parityAccumulator := false, phase := .frameComplete })

/-- A parity pulse: compare, and neither shift nor count (R120 to R123). -/
def takeParityPulse (w timestamp : Nat) (s : State) : State :=
  if classify w s.thresholdMicros ≠ s.parityAccumulator then enterFrameError s
  else if isFinalPosition s.cfg.profile s.bitPosition then completeFrame timestamp s
  else passFirstParity s

/-- A rising edge without a gap, at the end of a pulse of width `w` (R116 to R123). -/
def samplePulse (w timestamp : Nat) (s : State) : State :=
  match s.phase with
  | .idle => s
  | .startDetected => takeStartPulse w s
  | .receiving => takeDataPulse w s
  | .parityCheck => takeParityPulse w timestamp s
  | .frameComplete => s
  | .frameError => s

/-- `Edge(level, timestamp)` (R128). -/
def edge (level : Level) (timestamp : Nat) (s : State) : State :=
  if s.armed = false then s
  else if s.lastEdgeValid = false then recordFirstEdge timestamp s
  else
    let w := interval s.cfg.widths timestamp s.lastEdgeTimestamp
    let s1 := { s with lastEdgeTimestamp := timestamp }
    if isGap s.cfg w then startCondition s1
    else
      match level with
      | .falling => s1
      | .rising => samplePulse w timestamp s1

/-- `EDGE.FALL timestamp` (R110). -/
def execEdgeFall (timestamp : Nat) (s : State) : Host.Outcome State Fault Refusal := .next (edge .falling timestamp s)

/-- `EDGE.RISE timestamp` (R111). -/
def execEdgeRise (timestamp : Nat) (s : State) : Host.Outcome State Fault Refusal := .next (edge .rising timestamp s)

end Sys2Proof.Machine
end

