-- ==== Sys2Proof/Machine/FrameBuffer.lean ====
section
/-! DEFINITION. The consumer's operation on the frame buffer (42_frame_buffer.md). `publish` is in `Ops.lean`. -/

namespace Sys2Proof.Machine

/-- `TAKE`: return the visible entry; it does not consume and does not wait (R143, R144). -/
def execTake (s : State) : Host.Outcome State Fault Refusal := .next (respond (takeData s.cfg.profile s.visible) s)

end Sys2Proof.Machine
end

