-- ==== Sys2Proof/Machine/Dispatch.lean ====
section
/-! DEFINITION. One arm per operation (30_encoding.md R84). -/

namespace Sys2Proof.Machine

def exec (i : Instr) (s : State) : Host.Outcome State Fault Refusal :=
  match i with
  | .edgeFall timestamp => Sys2Proof.Machine.execEdgeFall timestamp s
  | .edgeRise timestamp => Sys2Proof.Machine.execEdgeRise timestamp s
  | .beginOp attachOk => Sys2Proof.Machine.execBegin attachOk s
  | .endOp => Sys2Proof.Machine.execEnd s
  | .take => Sys2Proof.Machine.execTake s
  | .isconn now timeoutMs => Sys2Proof.Machine.execIsconn now timeoutMs s
  | .read now timeoutMs => Sys2Proof.Machine.execRead now timeoutMs s

end Sys2Proof.Machine
end

