-- ==== Sys2Proof/Machine/Fetch.lean ====
section
/-! DEFINITION. The delivery of port words (00_scope.md R12, 20_memory.md R59; log 3). -/

namespace Sys2Proof.Machine

/-- The next port word, and the state without it; none when the environment has nothing to deliver. -/
def fetch (s : State) : Option (PortWord × State) :=
  match s.pending with
  | [] => none
  | w :: rest => some (w, { s with pending := rest })

/-- Run one delivered port word: the operation it decodes to, or the answer to a reserved command (R85). -/
def runWord (w : PortWord) (s : State) : Host.Outcome State Fault Refusal :=
  match decode s.cfg.widths w with
  | .instr i => exec i s
  | .reservedOp _ => execReserved s

/-- One step: the next operation, or nothing at all while none is delivered (R221). -/
def stepOnce (s : State) : Host.Outcome State Fault Refusal :=
  match fetch s with
  | none => .next s
  | some (w, s1) => runWord w s1

/-- Deliver the word of a table row next, before the words that wait already. -/
def deliverWord (s : State) (nbits w : Nat) : State :=
  match portWordOf nbits w with
  | none => s
  | some p => { s with pending := p :: s.pending }

/-- A sequence of operations, applied one after the other (R16): the run of R16, less its encoding. -/
def runOps : List Instr → State → Host.Outcome State Fault Refusal
  | [], s => .next s
  | i :: rest, s =>
    match exec i s with
    | .next t => runOps rest t
    | .fault r => .fault r
    | .refused r => .refused r

end Sys2Proof.Machine
end

