-- ==== Sys2Proof/Machine/Step.lean ====
section
/-! DEFINITION. The step of the machine: one atomic operation of one agent (00_scope.md R12). -/

namespace Sys2Proof.Machine

/-- One step (R12, R59; log 3). -/
def step (s : State) : Host.Outcome State Fault Refusal := stepOnce s

/-- `s` with the word of a table row placed where `step` takes its next operation: at the front of `pending` (log 3). -/
def State.withFetchWord (s : State) (nbits w : Nat) : State := deliverWord s nbits w

end Sys2Proof.Machine
end

