-- ==== Sys2Proof/Safety.lean ====
section
/-! DEFINITION. The terms of the statements: the invariants of 10_state.md R41 and R42, what counts as a publish and as a
start condition in a run, and which parts of the state no port can observe (20_memory.md R58, R43). -/

namespace Sys2Proof.Machine

/-! ### Invariants -/

/-- The invariants of R42 (b) to (h) and (k), with the bound of R104, the widths of the registers (R27, R28, R32, R35) and
the part of (i) and (j) that one state shows: a valid entry exists only after a valid frame was published. R42 (a), and
`bitPosition <= D` of (g), hold by the type of `State`. -/
structure State.Inv (s : State) : Prop where
  /-- An entry has `D` bits (R29). -/
  entriesFit : s.buf.wf s.cfg.profile = true
  /-- The configuration is one of those that R5 allows. -/
  cfgLegal : s.cfg.wf = true
  /-- R42 (g), second half; R25. -/
  accumulatorBound : s.accumulator.toNat < 2 ^ s.bitPosition
  /-- R42 (b). -/
  receivingPosition : s.phase = .receiving → s.bitPosition < s.cfg.profile.dataBits
  /-- R42 (c). -/
  parityPosition : s.phase = .parityCheck →
    s.bitPosition = s.cfg.profile.firstGroup ∨ s.bitPosition = s.cfg.profile.dataBits
  /-- R42 (d). -/
  completePosition : s.phase = .frameComplete → s.bitPosition = s.cfg.profile.dataBits
  /-- R42 (e). -/
  errorPosition : s.phase = .frameError →
    s.bitPosition = s.cfg.profile.firstGroup ∨ s.bitPosition = s.cfg.profile.dataBits
  /-- R42 (f). -/
  startCleared : s.phase = .startDetected → s.bitPosition = 0 ∧ s.accumulator = 0 ∧ s.parityAccumulator = false
  /-- R42 (h), R104, for any `GAP_US` and `THRESH_RESET`; with the values of R5 the bound is 1333. -/
  thresholdBound : s.thresholdMicros ≤ max s.cfg.threshReset (4 * s.cfg.gapUs / 3)
  /-- R28. -/
  thresholdFits : s.thresholdMicros < 2 ^ s.cfg.widths.ts
  /-- R27. -/
  lastEdgeFits : s.lastEdgeTimestamp < 2 ^ s.cfg.widths.ts
  /-- R32. -/
  heartbeatFits : s.lastHeartbeatTimestamp < 2 ^ s.cfg.widths.ts
  /-- R35. -/
  reportTimeFits : s.lastReportedTimestamp < 2 ^ s.cfg.widths.ts
  /-- R42 (k). -/
  reportedFits : s.repValid = true → s.lastReportedPayload.toNat < 2 ^ s.cfg.profile.payloadWidth
  /-- R42 (i), (j): the half that one state shows. -/
  validEntryHeard : s.buf.buf0.valid = true ∨ s.buf.buf1.valid = true → s.hbValid = true

/-- How many data bits of the current parity group have been received (R24, R74): all of them in the first group, and
those after the first `G1` in the second. At `bitPosition` = `G1` the first check has been passed exactly in
`RECEIVING` (R42 (b)). -/
def State.groupLength (s : State) : Nat :=
  if s.bitPosition < s.cfg.profile.firstGroup ∨
      (s.bitPosition = s.cfg.profile.firstGroup ∧ s.phase ≠ .receiving) then s.bitPosition
  else s.bitPosition - s.cfg.profile.firstGroup

/-- What `parityAccumulator` means (R24): "the exclusive or of the data bits received since the last start condition or
the last matching parity check". In `IDLE` it means nothing, because `BEGIN` keeps it and forgets the phase (R42 (f)). -/
structure State.GroupParity (s : State) : Prop where
  running : s.phase = .startDetected ∨ s.phase = .receiving ∨ s.phase = .parityCheck ∨ s.phase = .frameError →
    s.parityAccumulator = parityOf (msbFirst s.accumulator.toNat s.groupLength)
  complete : s.phase = .frameComplete → s.parityAccumulator = false

/-- A response word as R81 and R200 allow it: a status code of 0 to 4, and data 0 with every code but `OK`. -/
def rspWellCoded (r : RspWord) : Prop := r.toNat / 2 ^ 32 ≤ 4 ∧ (r.toNat / 2 ^ 32 ≠ 0 → r.toNat % 2 ^ 32 = 0)

/-! ### Start conditions and publishes in a run -/

/-- The state takes an edge at `timestamp` as a start condition: armed, with an earlier edge, and a gap (R114). -/
def State.startsFrameAt (s : State) (timestamp : Nat) : Prop :=
  s.armed = true ∧ s.lastEdgeValid = true ∧ s.cfg.gapUs < interval s.cfg.widths timestamp s.lastEdgeTimestamp

/-- The state takes an edge at `timestamp` as an ordinary one: armed, with an earlier edge, and no gap (R112). -/
def State.inFrameAt (s : State) (timestamp : Nat) : Prop :=
  s.armed = true ∧ s.lastEdgeValid = true ∧ interval s.cfg.widths timestamp s.lastEdgeTimestamp ≤ s.cfg.gapUs

/-- The operation is a start condition in the state. -/
def State.startsFrame (s : State) (i : Instr) : Prop :=
  ∃ timestamp, (i = .edgeFall timestamp ∨ i = .edgeRise timestamp) ∧ s.startsFrameAt timestamp

/-- No operation of the sequence is a start condition where it is applied. -/
def noStartCondition : List Instr → State → Prop
  | [], _ => True
  | i :: rest, s => ¬ s.startsFrame i ∧ ∀ t, exec i s = .next t → noStartCondition rest t

/-- How many operations of the sequence publish: how often `visibleIdx`, which "every `publish`" toggles "and nothing
else" (R30), changes. -/
def publishCount : List Instr → State → Nat
  | [], _ => 0
  | i :: rest, s =>
    match exec i s with
    | .next t => (if t.visibleIdx = s.visibleIdx then 0 else 1) + publishCount rest t
    | .fault _ => 0
    | .refused _ => 0

/-! ### What the ports can observe -/

/-- The two states differ at most in what no rule reads: the hidden entry (R58), timestamps and the payload whose valid
bit is 0 (R43), and the assembler's data registers while no frame is in progress (R231). -/
structure SameObservable (s t : State) : Prop where
  cfg : s.cfg = t.cfg
  phase : s.phase = t.phase
  frameRegisters : s.phase = .startDetected ∨ s.phase = .receiving ∨ s.phase = .parityCheck →
    s.bitPosition = t.bitPosition ∧ s.parityAccumulator = t.parityAccumulator ∧ s.accumulator = t.accumulator
  lastEdgeValid : s.lastEdgeValid = t.lastEdgeValid
  lastEdgeTimestamp : s.lastEdgeValid = true → s.lastEdgeTimestamp = t.lastEdgeTimestamp
  thresholdMicros : s.thresholdMicros = t.thresholdMicros
  visible : s.visible = t.visible
  hbValid : s.hbValid = t.hbValid
  lastHeartbeatTimestamp : s.hbValid = true → s.lastHeartbeatTimestamp = t.lastHeartbeatTimestamp
  repValid : s.repValid = t.repValid
  lastReported : s.repValid = true →
    s.lastReportedPayload = t.lastReportedPayload ∧ s.lastReportedTimestamp = t.lastReportedTimestamp
  armed : s.armed = t.armed
  responses : s.responses = t.responses

/-! ### Frames on the wire -/

/-- An interval inside a frame: not longer than `GAP_US` (R71, R106), and one that the timestamps can show. -/
def inFrameInterval (c : Config) (d : Nat) : Prop := d ≤ c.gapUs ∧ d < 2 ^ c.widths.ts

/-- The pulses carry the bits, for the threshold `T` (R106): each interval is one inside a frame, and a pulse is below `T`
exactly where its bit is 1. -/
def PulsesSpell (c : Config) (T : Nat) (bits : List Bool) (pulses : List (Nat × Nat)) : Prop :=
  List.Forall₂ (fun b (p : Nat × Nat) =>
    inFrameInterval c p.1 ∧ inFrameInterval c p.2 ∧ (b = true ↔ p.2 < T)) bits pulses

/-- The list with its entry number `k` inverted. -/
def flipBit (bits : List Bool) (k : Nat) : List Bool := bits.modify k not

/-- The true time of a platform counter as the port shows it: its low `TS_W` bits (R220). -/
def stampOf (k : Widths) (trueTime : Nat) : Nat := trueTime % 2 ^ k.ts

/-- The environment's duty on times (R13, R17): true times never decrease. Timestamps are their low `TS_W` bits. -/
def TimesNeverDecrease (times : List Nat) : Prop := times.Pairwise (· ≤ ·)

/-- The exact value of a binary32 word whose exponent field is neither 0 nor 255 (93_implementation_defined.md K3). -/
def binary32Value (w : DataWord) : Rat :=
  (if w.getLsbD 31 then -1 else 1) * ((2 ^ 23 + w.toNat % 2 ^ 23 : Nat) : Rat) *
    (2 : Rat) ^ (((w.toNat / 2 ^ 23 % 256 : Nat) : Int) - 150)

/-- The distance between neighbouring binary32 numbers with the exponent field of `w` (K3). -/
def binary32Unit (w : DataWord) : Rat := (2 : Rat) ^ (((w.toNat / 2 ^ 23 % 256 : Nat) : Int) - 150)

end Sys2Proof.Machine
end

