-- ==== Sys2Proof/Certificates/Slice0/Obligations.lean ====
section
/-! DEFINITION. The statements for the provers. Each cites the rules of `spec/` it formalises in its docstring. Unless a
docstring says otherwise a statement holds for every state, reached or not, and so for every configuration. -/

open Sys2Proof Sys2Proof.Machine

/-! ### Encodings (30_encoding.md) -/

/-- Decoding the word of any operation gives the operation back, for every `TS_W` and `TMO_W` (R79, R80, R84; where the
fields stand when a width is not 32 is the model's reading, log 2), and the word has the bits of its format and no more. -/
def Obligations.DecodeInvertsEncode : Prop :=
  ∀ (k : Widths) (i : Instr), k.wf = true → i.wf k = true →
    decode k (encode k i) = .instr i ∧ (encode k i).wf k = true

/-- Format EV (R79), with `TS_W` = 32: bit 32 is the level, bits 31 to 0 the timestamp; every 33-bit word is a legal event,
and it is the encoding of the event it decodes to. -/
def Obligations.EveryEdgeWordIsALegalEvent : Prop :=
  ∀ w : Nat, w < 2 ^ 33 → ∃ t : Nat, t = w % 2 ^ 32 ∧
    (2 ^ 32 ≤ w → decode Widths.standard (.ev w) = .instr (.edgeRise t) ∧
      encode Widths.standard (.edgeRise t) = .ev w) ∧
    (w < 2 ^ 32 → decode Widths.standard (.ev w) = .instr (.edgeFall t) ∧
      encode Widths.standard (.edgeFall t) = .ev w)

/-- Format CMD (R80), with `TS_W` = `TMO_W` = 32: where each field stands, by the value of `op`. What a word decodes to
depends on the bits named here and on no other. -/
def Obligations.CommandWordFieldsAreReadInPlace : Prop :=
  ∀ w : Nat, w < 2 ^ 67 →
    (w / 2 ^ 64 = 0 → decode Widths.standard (.cmd w) = .instr (.beginOp (decide (w % 2 = 1)))) ∧
    (w / 2 ^ 64 = 1 → decode Widths.standard (.cmd w) = .instr .endOp) ∧
    (w / 2 ^ 64 = 2 → decode Widths.standard (.cmd w) = .instr .take) ∧
    (w / 2 ^ 64 = 3 → decode Widths.standard (.cmd w) = .instr (.isconn (w / 2 ^ 32 % 2 ^ 32) (w % 2 ^ 32))) ∧
    (w / 2 ^ 64 = 4 → decode Widths.standard (.cmd w) = .instr (.read (w / 2 ^ 32 % 2 ^ 32) (w % 2 ^ 32)))

/-- Ignored bits "may hold any value and change nothing" (R80), and a reserved command ignores its other fields (R203):
two command words of the instance with the same `op`, other than 3 and 4, and for `BEGIN` the same bit 0, do the same.
Where `op` stands when a width is not 32 is the model's reading (log 2). -/
def Obligations.IgnoredCommandBitsChangeNothing : Prop :=
  ∀ (w w' : Nat) (rest : List PortWord) (s : State),
    let opAt := s.cfg.widths.ts + s.cfg.widths.tmo
    w < 2 ^ (3 + opAt) → w' < 2 ^ (3 + opAt) →
    w / 2 ^ opAt = w' / 2 ^ opAt → w / 2 ^ opAt ≠ 3 → w / 2 ^ opAt ≠ 4 → (w / 2 ^ opAt = 0 → w % 2 = w' % 2) →
    step { s with pending := .cmd w :: rest } = step { s with pending := .cmd w' :: rest }

/-- A command with `op` 5, 6 or 7 changes no register and answers status 4, `BadOperation`, with data 0 (R85). The command
stands in the formats of R80, that is with `TS_W` = `TMO_W` = 32. -/
def Obligations.ReservedCommandAnswersBadOperation : Prop :=
  ∀ (s : State) (w : Nat) (rest : List PortWord), s.cfg.widths = Widths.standard → w < 2 ^ 67 →
    s.pending = .cmd w :: rest → 5 ≤ w / 2 ^ 64 →
    step s = .next { s with pending := rest, responses := s.responses ++ [0x400000000] }

/-- Words written out from the encodings of R79, R80 and R84 decode to the operations they stand for (the words are those
of 95_test_vectors.md, with some ignored bits set in the last two). That a number of 40 bits is an EV word and one of 72
bits a CMD word of `spec/opcode_table.json` is the model's choice (log 8). -/
def Obligations.WrittenOutWordsDecode : Prop :=
  decodeTableWord 40 0x000001388 = some (.edgeFall 5000) ∧
  decodeTableWord 40 0x1000013C4 = some (.edgeRise 5060) ∧
  decodeTableWord 72 0x00000000000000001 = some (.beginOp true) ∧
  decodeTableWord 72 0x10000000000000000 = some .endOp ∧
  decodeTableWord 72 0x20000000000000000 = some .take ∧
  decodeTableWord 72 0x30001A1D500000064 = some (.isconn 106965 100) ∧
  decodeTableWord 72 0x400001F4000000064 = some (.read 8000 100) ∧
  decodeTableWord 72 0x50000000000000000 = none ∧
  decodeTableWord 72 0x1FFFFFFFFFFFFFFFF = some .endOp ∧
  decodeTableWord 72 0x0FFFFFFFFFFFFFFFE = some (.beginOp false)

/-- A frame as a bit list (R91, R72, R74): `L` bits; the first `G1` and the `G2` after the first parity bit are the data,
most significant first; each group together with its parity bit has even parity. -/
def Obligations.FrameBitListCarriesDataWithEvenParity : Prop :=
  ∀ (p : Profile) (payload control : Nat), payload < 2 ^ p.payloadWidth →
    control < 2 ^ (p.dataBits - p.payloadWidth) →
    let bits := frameBitList p (control * 2 ^ p.payloadWidth + payload)
    bits.length = p.pulses ∧
    bitsValue (bits.take 9 ++ (bits.drop 10).take p.secondGroup) = control * 2 ^ p.payloadWidth + payload ∧
    parityOf (bits.take 10) = false ∧ parityOf (bits.drop 10) = false

/-! ### Steps (00_scope.md, 20_memory.md) -/

/-- A delivered word that decodes to an operation is run as that operation, on the state without the word (R12, R59,
R84); the operation is well formed. The queue of delivered words is the model's (log 3). -/
def Obligations.StepRunsTheDecodedOperation : Prop :=
  ∀ (s : State) (w : PortWord) (rest : List PortWord) (i : Instr),
    s.pending = w :: rest → decode s.cfg.widths w = .instr i →
    i.wf s.cfg.widths = true ∧ step s = exec i { s with pending := rest }

/-- While no operation is delivered nothing changes: "Nothing happens in the block because time passes" (R221). That a
step without an operation exists at all is the model's choice (log 3). -/
def Obligations.StepWithoutOperationChangesNothing : Prop :=
  ∀ s : State, s.pending = [] → step s = .next s

/-- The encoding of any operation, placed by `withFetchWord` in the numbering of `spec/opcode_table.json`, is what the
very next step runs, on the state as it was, where the instance has the widths of the table (the model's choice, log 3 and
log 8). -/
def Obligations.PlacedWordIsTheNextOperation : Prop :=
  ∀ (s : State) (i : Instr), s.cfg.widths = Widths.standard → i.wf Widths.standard = true →
    match encode Widths.standard i with
    | .ev w => step (s.withFetchWord 40 w) = exec i s
    | .cmd w => step (s.withFetchWord 72 w) = exec i s

/-- "Every operation is total and deterministic" (R14): exactly one next state, and exactly one result, which is one RSP
word for a consumer operation and none for a producer operation; no operation and no step faults. -/
def Obligations.EveryOperationCompletesWithOneResult : Prop :=
  (∀ (i : Instr) (s : State), ∃ t, exec i s = .next t ∧ (∀ t', exec i s = .next t' → t' = t) ∧
    (i.port = .producer → t.responses = s.responses) ∧
    (i.port = .consumer → ∃ r, t.responses = s.responses ++ [r])) ∧
  ∀ s : State, ∃ t, step s = .next t

/-! ### Reset and the invariants (10_state.md, 70_reset_and_hazards.md) -/

/-- The values after reset (R43, R231): `thresholdMicros` is `THRESH_RESET`, which is 0 in `State.reset`, and every other
register is as listed, for every configuration. -/
def Obligations.ResetRegisterValues : Prop :=
  State.reset.thresholdMicros = 0 ∧ (∀ c : Config, (State.resetWith c).thresholdMicros = c.threshReset) ∧
  ∀ r : State, (r = State.reset ∨ ∃ c : Config, r = State.resetWith c) →
    r.phase = .idle ∧ r.bitPosition = 0 ∧ r.parityAccumulator = false ∧ r.accumulator = 0 ∧
    r.lastEdgeValid = false ∧ r.lastEdgeTimestamp = 0 ∧
    r.buf.read 0 = ⟨0, false⟩ ∧ r.buf.read 1 = ⟨0, false⟩ ∧ r.visibleIdx = 0 ∧ r.hbValid = false ∧
    r.lastHeartbeatTimestamp = 0 ∧ r.repValid = false ∧ r.lastReportedPayload = 0 ∧
    r.lastReportedTimestamp = 0 ∧ r.armed = false

/-- Before any `BEGIN` (R232): edges have no effect, `TAKE` answers (0, 0), `ISCONN` answers 0 and `READ` answers
`NotConnected`, whatever was asked before. -/
def Obligations.BeforeFirstBeginNothingIsHeard : Prop :=
  ∀ (c : Config) (ops : List Instr) (t : State), (∀ a, Instr.beginOp a ∉ ops) →
    runOps ops (State.resetWith c) = .next t →
    (∀ ts, exec (.edgeFall ts) t = .next t ∧ exec (.edgeRise ts) t = .next t) ∧
    exec .take t = .next { t with responses := t.responses ++ [0] } ∧
    ∀ now tmo, exec (.isconn now tmo) t = .next { t with responses := t.responses ++ [0] } ∧
      exec (.read now tmo) t = .next { t with responses := t.responses ++ [0x100000000] }

/-- Reset satisfies the invariants of R42 and the meaning of `parityAccumulator` (R24), for every legal configuration; the
configuration of `State.reset` is one, with the values that R5 gives. -/
def Obligations.ResetSatisfiesTheInvariants : Prop :=
  (∀ c : Config, c.wf = true → (State.resetWith c).Inv ∧ (State.resetWith c).GroupParity) ∧
  State.reset.Inv ∧ State.reset.GroupParity ∧
  State.reset.cfg.widths = ⟨32, 32⟩ ∧ State.reset.cfg.gapUs = 1000 ∧ State.reset.cfg.threshReset = 0

/-- Every step keeps the invariants of R42, from every state that has them. With the values of R5, `thresholdMicros` is at
most 1333 (R42 (h), R104). -/
def Obligations.EveryStepKeepsTheRegisterInvariant : Prop :=
  (∀ s t : State, s.Inv → step s = .next t → t.Inv) ∧
  ∀ s : State, s.Inv → s.cfg.gapUs = 1000 → s.cfg.threshReset = 0 → s.thresholdMicros ≤ 1333

/-- Every step keeps the meaning of `parityAccumulator` (R24): the exclusive or of the data bits of the current group
that stand in the accumulator. -/
def Obligations.EveryStepKeepsTheGroupParity : Prop :=
  ∀ s t : State, s.Inv → s.GroupParity → step s = .next t → t.GroupParity

/-- Neither agent can change the configuration (R219). -/
def Obligations.NoStepChangesTheConfiguration : Prop :=
  ∀ s t : State, step s = .next t → t.cfg = s.cfg

/-- Every step answers only with the status codes of R200, and with data 0 for every outcome but `OK` (R81, R200), and
takes back no earlier response. -/
def Obligations.EveryResponseIsWellCoded : Prop :=
  ∀ s t : State, (∀ r ∈ s.responses, rspWellCoded r) → step s = .next t →
    (∀ r ∈ t.responses, rspWellCoded r) ∧ s.responses <+: t.responses

/-! ### Edges (41_frame_assembler.md, 40_bit_window.md) -/

/-- While the block is not armed an edge leaves the whole state unchanged (R36, R112 (1)). -/
def Obligations.UnarmedEdgeChangesNothing : Prop :=
  ∀ (s : State) (ts : Nat), s.armed = false →
    exec (.edgeFall ts) s = .next s ∧ exec (.edgeRise ts) s = .next s

/-- The first event since start is recorded and discarded, whatever the level and the phase (R113); so the first edge
after a `BEGIN` is never a start condition, nor is the first edge after reset, which finds the block not armed. -/
def Obligations.FirstEdgeIsRecordedAndDiscarded : Prop :=
  (∀ (s : State) (ts : Nat), s.armed = true → s.lastEdgeValid = false →
    exec (.edgeFall ts) s = .next { s with lastEdgeTimestamp := ts, lastEdgeValid := true } ∧
    exec (.edgeRise ts) s = .next { s with lastEdgeTimestamp := ts, lastEdgeValid := true }) ∧
  (∀ (s : State) (ts : Nat), ∃ t u,
    runOps [.beginOp true, .edgeFall ts] s = .next t ∧ t.phase = .idle ∧
    runOps [.beginOp true, .edgeRise ts] s = .next u ∧ u.phase = .idle) ∧
  ∀ (c : Config) (ts : Nat), ∃ t u,
    exec (.edgeFall ts) (State.resetWith c) = .next t ∧ t.phase = .idle ∧
    exec (.edgeRise ts) (State.resetWith c) = .next u ∧ u.phase = .idle

/-- A start condition, for either level and from every phase (R114): an interval greater than `GAP_US`. Nothing is
published and the threshold is kept. -/
def Obligations.StartConditionFromEveryPhase : Prop :=
  ∀ (s : State) (ts : Nat), s.armed = true → s.lastEdgeValid = true →
    s.cfg.gapUs < interval s.cfg.widths ts s.lastEdgeTimestamp →
    let t := { s with
      phase := .startDetected, accumulator := 0, parityAccumulator := false
      bitPosition := 0, positionBound := Nat.zero_le _, lastEdgeTimestamp := ts }
    exec (.edgeFall ts) s = .next t ∧ exec (.edgeRise ts) s = .next t

/-- A falling edge without a gap only updates `lastEdgeTimestamp` (R115). -/
def Obligations.FallingEdgeWithoutGapOnlyMovesTheTimestamp : Prop :=
  ∀ (s : State) (ts : Nat), s.armed = true → s.lastEdgeValid = true →
    interval s.cfg.widths ts s.lastEdgeTimestamp ≤ s.cfg.gapUs →
    exec (.edgeFall ts) s = .next { s with lastEdgeTimestamp := ts }

/-- A rising edge without a gap in `IDLE`, `FRAME_COMPLETE` or `FRAME_ERROR` only updates `lastEdgeTimestamp` (R116). -/
def Obligations.PulseOutsideAFrameIsIgnored : Prop :=
  ∀ (s : State) (ts : Nat), s.armed = true → s.lastEdgeValid = true →
    interval s.cfg.widths ts s.lastEdgeTimestamp ≤ s.cfg.gapUs →
    s.phase = .idle ∨ s.phase = .frameComplete ∨ s.phase = .frameError →
    exec (.edgeRise ts) s = .next { s with lastEdgeTimestamp := ts }

/-- The start pulse of width `w` sets the threshold to `w` plus a quarter of the old one, rounded down, and starts
reception; it contributes no bit (R117, with the formula of R101). -/
def Obligations.StartPulseCalibratesTheThreshold : Prop :=
  ∀ (s : State) (ts : Nat), s.inFrameAt ts → s.phase = .startDetected →
    exec (.edgeRise ts) s = .next { s with
      lastEdgeTimestamp := ts
      thresholdMicros := (interval s.cfg.widths ts s.lastEdgeTimestamp + s.thresholdMicros / 4) % 2 ^ s.cfg.widths.ts
      phase := .receiving }

/-- A data pulse of width `w` is bit 1 exactly when `w < thresholdMicros`; the bit enters the accumulator at the low end
and the running parity, the position advances, and at the positions `G1` = 9 and `D` the next pulse is a parity pulse
(R118, R119). `bitPosition` below `D` is R42 (b), one of the invariants that every step keeps; with them the `mod 2^D`
never discards a set bit. -/
def Obligations.DataPulseShiftsOneBit : Prop :=
  ∀ (s : State) (ts : Nat), s.inFrameAt ts → s.phase = .receiving →
    let b := decide (interval s.cfg.widths ts s.lastEdgeTimestamp < s.thresholdMicros)
    let position := s.bitPosition + 1
    (∀ below : position ≤ s.cfg.profile.dataBits, exec (.edgeRise ts) s = .next { s with
      lastEdgeTimestamp := ts
      accumulator := BitVec.ofNat 14 ((2 * s.accumulator.toNat + b.toNat) % 2 ^ s.cfg.profile.dataBits)
      parityAccumulator := s.parityAccumulator ^^ b
      bitPosition := position
      positionBound := below
      phase := if position = 9 ∨ position = s.cfg.profile.dataBits then .parityCheck else .receiving }) ∧
    (s.Inv → position ≤ s.cfg.profile.dataBits ∧
      2 * s.accumulator.toNat + b.toNat < 2 ^ s.cfg.profile.dataBits)

/-- A match at the first parity position clears the running parity and opens the second group; `bitPosition` stays `G1`
(R121). -/
def Obligations.FirstParityMatchOpensTheSecondGroup : Prop :=
  ∀ (s : State) (ts : Nat), s.inFrameAt ts → s.phase = .parityCheck → s.bitPosition = 9 →
    decide (interval s.cfg.widths ts s.lastEdgeTimestamp < s.thresholdMicros) = s.parityAccumulator →
    exec (.edgeRise ts) s = .next { s with
      lastEdgeTimestamp := ts, parityAccumulator := false, phase := .receiving }

/-- A match at the final parity position, in one step: the write entry takes the accumulator as valid and becomes the
visible one, the heartbeat takes the timestamp of this edge, and the frame is complete (R122). -/
def Obligations.FinalParityMatchPublishesTheFrame : Prop :=
  ∀ (s : State) (ts : Nat), s.inFrameAt ts → s.phase = .parityCheck →
    s.bitPosition = s.cfg.profile.dataBits →
    decide (interval s.cfg.widths ts s.lastEdgeTimestamp < s.thresholdMicros) = s.parityAccumulator →
    exec (.edgeRise ts) s = .next { s with
      lastEdgeTimestamp := ts
      parityAccumulator := false
      buf := s.buf.write (1 - s.visibleIdx) ⟨s.accumulator, true⟩
      visibleIdx := 1 - s.visibleIdx
      hbValid := true
      lastHeartbeatTimestamp := ts
      phase := .frameComplete }

/-- A mismatch at either parity position enters `FRAME_ERROR` and publishes the accumulator as invalid; accumulator,
position, running parity, threshold and heartbeat are kept (R123, R213). -/
def Obligations.ParityMismatchPublishesAnInvalidFrame : Prop :=
  ∀ (s : State) (ts : Nat), s.inFrameAt ts → s.phase = .parityCheck →
    decide (interval s.cfg.widths ts s.lastEdgeTimestamp < s.thresholdMicros) ≠ s.parityAccumulator →
    exec (.edgeRise ts) s = .next { s with
      lastEdgeTimestamp := ts
      buf := s.buf.write (1 - s.visibleIdx) ⟨s.accumulator, false⟩
      visibleIdx := 1 - s.visibleIdx
      phase := .frameError }

/-- What `EDGE.FALL` leaves alone (R110): it "never shifts a bit, never calibrates, never publishes". Every byte of the
frame buffer is as before, and so is every register but those of a first event or of a start condition. -/
def Obligations.FallingEdgeFrame : Prop :=
  ∀ (s t : State) (ts : Nat), exec (.edgeFall ts) s = .next t →
    (∀ a, t.buf.read a = s.buf.read a) ∧ t.visibleIdx = s.visibleIdx ∧ t.thresholdMicros = s.thresholdMicros ∧
    t.cfg = s.cfg ∧ t.armed = s.armed ∧ t.hbValid = s.hbValid ∧
    t.lastHeartbeatTimestamp = s.lastHeartbeatTimestamp ∧ t.repValid = s.repValid ∧
    t.lastReportedPayload = s.lastReportedPayload ∧ t.lastReportedTimestamp = s.lastReportedTimestamp ∧
    t.pending = s.pending ∧ t.responses = s.responses ∧
    ((t.phase = s.phase ∧ t.bitPosition = s.bitPosition ∧ t.accumulator = s.accumulator ∧
        t.parityAccumulator = s.parityAccumulator) ∨
      (s.startsFrameAt ts ∧ t.phase = .startDetected ∧ t.bitPosition = 0 ∧ t.accumulator = 0 ∧
        t.parityAccumulator = false)) ∧
    (t.lastEdgeTimestamp = s.lastEdgeTimestamp ∧ t.lastEdgeValid = s.lastEdgeValid ∨
      s.armed = true ∧ t.lastEdgeTimestamp = ts ∧ t.lastEdgeValid = true)

/-- What `EDGE.RISE` leaves alone (R111, R51, R217): the configuration, `armed`, the reported reading, the queues, every
entry of the buffer but the one at the address `publish` stores to, which is `s.writeIdx` = `1 − visibleIdx`; and the
whole buffer outside `PARITY_CHECK`. -/
def Obligations.RisingEdgeFrame : Prop :=
  ∀ (s t : State) (ts : Nat), exec (.edgeRise ts) s = .next t →
    t.cfg = s.cfg ∧ t.armed = s.armed ∧ t.repValid = s.repValid ∧
    t.lastReportedPayload = s.lastReportedPayload ∧ t.lastReportedTimestamp = s.lastReportedTimestamp ∧
    t.pending = s.pending ∧ t.responses = s.responses ∧
    (∀ a, a ≠ s.writeIdx → t.buf.read a = s.buf.read a) ∧
    (s.phase ≠ .parityCheck → (∀ a, t.buf.read a = s.buf.read a) ∧ t.visibleIdx = s.visibleIdx ∧
      t.hbValid = s.hbValid ∧ t.lastHeartbeatTimestamp = s.lastHeartbeatTimestamp) ∧
    (s.phase ≠ .startDetected → t.thresholdMicros = s.thresholdMicros)

/-- The only operation that touches the frame buffer is a rising edge in `PARITY_CHECK` (R129 (e)); it swaps the entries,
and shows the accumulator, valid exactly when the frame is complete (R141, R142). -/
def Obligations.PublishHappensOnlyInParityCheck : Prop :=
  ∀ (i : Instr) (s t : State), exec i s = .next t → (t.buf ≠ s.buf ∨ t.visibleIdx ≠ s.visibleIdx) →
    ∃ ts, i = .edgeRise ts ∧ s.inFrameAt ts ∧ s.phase = .parityCheck ∧ t.visibleIdx = 1 - s.visibleIdx ∧
      t.visible.bits = s.accumulator ∧
      (t.phase = .frameComplete ∧ t.visible.valid = true ∧ s.bitPosition = s.cfg.profile.dataBits ∨
        t.phase = .frameError ∧ t.visible.valid = false)

/-- "Between two start conditions at most one `publish` happens" (R129 (d)), whatever the consumer does in between. -/
def Obligations.AtMostOnePublishPerStartCondition : Prop :=
  ∀ (ops : List Instr) (s : State), noStartCondition ops s → publishCount ops s ≤ 1

/-- The heartbeat moves only with a complete valid frame, and takes the time of its last edge (R170, R171). -/
def Obligations.HeartbeatMovesOnlyWithACompleteFrame : Prop :=
  ∀ (i : Instr) (s t : State), exec i s = .next t →
    (t.hbValid ≠ s.hbValid ∨ t.lastHeartbeatTimestamp ≠ s.lastHeartbeatTimestamp) →
    ∃ ts, i = .edgeRise ts ∧ s.inFrameAt ts ∧ s.phase = .parityCheck ∧
      s.bitPosition = s.cfg.profile.dataBits ∧ t.phase = .frameComplete ∧ t.hbValid = true ∧
      t.lastHeartbeatTimestamp = ts ∧ t.visible = ⟨s.accumulator, true⟩

/-- Nothing but a start pulse moves the threshold (R105): no other pulse, no command, no failed frame. -/
def Obligations.OnlyAStartPulseMovesTheThreshold : Prop :=
  ∀ (i : Instr) (s t : State), exec i s = .next t → t.thresholdMicros ≠ s.thresholdMicros →
    ∃ ts, i = .edgeRise ts ∧ s.inFrameAt ts ∧ s.phase = .startDetected ∧ t.phase = .receiving ∧
      t.thresholdMicros =
        (interval s.cfg.widths ts s.lastEdgeTimestamp + s.thresholdMicros / 4) % 2 ^ s.cfg.widths.ts

/-- For start pulses of constant width `w <= 1000` the threshold never falls, and from its reset value 0 it reaches within
six steps a value `T` that the next start pulse keeps, with `4w/3 − 1 <= T <= 4w/3` (R103 (c)). The register has 11 bits
or more (R104); with `TS_W` = 32 it has. -/
def Obligations.ThresholdSettlesForConstantStartPulses : Prop :=
  ∀ (k : Widths) (w : Nat), 11 ≤ k.ts → w ≤ 1000 →
    (∀ n, (nextThreshold k w)^[n] 0 ≤ (nextThreshold k w)^[n + 1] 0) ∧
    ∀ n, 6 ≤ n → (nextThreshold k w)^[n] 0 = (nextThreshold k w)^[6] 0 ∧
      4 * w ≤ 3 * (nextThreshold k w)^[6] 0 + 3 ∧ 3 * (nextThreshold k w)^[6] 0 ≤ 4 * w

/-- How `phase` can change (R127): by a start condition to `START_DETECTED`, by `BEGIN` to `IDLE`, and otherwise along
the frame. So `FRAME_COMPLETE` and `FRAME_ERROR` are left only by a start condition or by `BEGIN`, and `IDLE` only by a
start condition (R124). -/
def Obligations.PhaseMovesOnlyAlongTheTransitionTable : Prop :=
  ∀ (i : Instr) (s t : State), exec i s = .next t → t.phase ≠ s.phase →
    (s.startsFrame i ∧ t.phase = .startDetected) ∨ (i = .beginOp true ∧ t.phase = .idle) ∨
    ∃ ts, i = .edgeRise ts ∧ s.inFrameAt ts ∧
      ((s.phase = .startDetected ∧ t.phase = .receiving) ∨ (s.phase = .receiving ∧ t.phase = .parityCheck) ∨
        (s.phase = .parityCheck ∧ t.phase ≠ .idle ∧ t.phase ≠ .startDetected))

/-- A frame built by R91 and sent with pulse widths that meet R106, after an earlier edge and a gap, is received: it ends
in `FRAME_COMPLETE` with the visible entry equal to (`data`, 1) and the heartbeat at its last rising edge (R129 (a)); the
entry visible before is untouched and nothing is answered. The frame's gap ends with a falling edge. -/
def Obligations.FrameSentIsFrameReceived : Prop :=
  ∀ (s : State) (payload control : Nat) (t0 start : Nat) (pulses : List (Nat × Nat)),
    payload < 2 ^ s.cfg.profile.payloadWidth →
    control < 2 ^ (s.cfg.profile.dataBits - s.cfg.profile.payloadWidth) →
    s.startsFrameAt t0 → inFrameInterval s.cfg start →
    PulsesSpell s.cfg ((start + s.thresholdMicros / 4) % 2 ^ s.cfg.widths.ts)
      (frameBitList s.cfg.profile (frameData s.cfg.profile payload control)) pulses →
    ∃ t, runOps (frameEdges s.cfg.widths t0 start pulses) s = .next t ∧ t.phase = .frameComplete ∧
      t.visible = ⟨BitVec.ofNat 14 (frameData s.cfg.profile payload control), true⟩ ∧
      t.visible.bits.toNat % 2 ^ s.cfg.profile.payloadWidth = payload ∧
      t.hbValid = true ∧ t.lastHeartbeatTimestamp = pulseTrainEnd s.cfg.widths (s.cfg.widths.later t0 start) pulses ∧
      t.bitPosition = s.cfg.profile.dataBits ∧ t.visibleIdx = 1 - s.visibleIdx ∧
      t.buf.read s.visibleIdx = s.visible ∧ t.responses = s.responses ∧
      t.thresholdMicros = (start + s.thresholdMicros / 4) % 2 ^ s.cfg.widths.ts

/-- The same frame with any one of its `L` bits inverted ends in `FRAME_ERROR` with an invalid visible entry; a bit among
the first `G1 + 1` fails the first check and a later one the second; the heartbeat is untouched (R129 (b)). -/
def Obligations.AnySingleInvertedBitIsCaught : Prop :=
  ∀ (s : State) (payload control k : Nat) (t0 start : Nat) (pulses : List (Nat × Nat)),
    payload < 2 ^ s.cfg.profile.payloadWidth →
    control < 2 ^ (s.cfg.profile.dataBits - s.cfg.profile.payloadWidth) → k < s.cfg.profile.pulses →
    s.startsFrameAt t0 → inFrameInterval s.cfg start →
    PulsesSpell s.cfg ((start + s.thresholdMicros / 4) % 2 ^ s.cfg.widths.ts)
      (flipBit (frameBitList s.cfg.profile (frameData s.cfg.profile payload control)) k) pulses →
    ∃ t, runOps (frameEdges s.cfg.widths t0 start pulses) s = .next t ∧ t.phase = .frameError ∧
      t.visible.valid = false ∧
      t.bitPosition = (if k ≤ 9 then 9 else s.cfg.profile.dataBits) ∧
      t.visibleIdx = 1 - s.visibleIdx ∧ t.buf.read s.visibleIdx = s.visible ∧
      t.hbValid = s.hbValid ∧ t.lastHeartbeatTimestamp = s.lastHeartbeatTimestamp

/-- The modular interval is the one number below `2^TS_W` that is congruent to the difference (R10). Of the timestamps of
two true times it is the true elapsed time while that is below `2^TS_W` µs, a wrap of the counter between them included; a
timestamp that goes back without a wrap gives an interval that is taken as a gap, as long as it goes back by less than
`2^TS_W − GAP_US` µs (R10, R241). -/
def Obligations.ModularIntervalIsTrueElapsedTime : Prop :=
  (∀ (k : Widths) (a b : Nat), interval k a b < 2 ^ k.ts ∧
    (interval k a b + b) % 2 ^ k.ts = a % 2 ^ k.ts) ∧
  ∀ (c : Config) (earlier later : Nat),
    (TimesNeverDecrease [earlier, later] → later - earlier < 2 ^ c.widths.ts →
      interval c.widths (stampOf c.widths later) (stampOf c.widths earlier) = later - earlier) ∧
    (later < earlier → earlier - later + c.gapUs < 2 ^ c.widths.ts →
      isGap c (interval c.widths (stampOf c.widths later) (stampOf c.widths earlier)) = true)

/-! ### The frame buffer (42_frame_buffer.md, 20_memory.md) -/

/-- `publish` (R141): the write entry takes the frame and becomes visible; the entry visible before is left as it is; no
other register changes; a second `publish` returns `visibleIdx` and overwrites that older entry. The rule's example. -/
def Obligations.PublishWritesTheHiddenEntryAndSwaps : Prop :=
  (∀ (s : State) (b : FrameBits) (v : Bool), let t := publish b v s
    t.visible = ⟨b, v⟩ ∧ t.visibleIdx = 1 - s.visibleIdx ∧ t.buf.read (1 - s.visibleIdx) = ⟨b, v⟩ ∧
    (∀ a, a ≠ 1 - s.visibleIdx → t.buf.read a = s.buf.read a) ∧ t.buf.read s.visibleIdx = s.visible ∧
    { t with buf := s.buf, visibleIdx := s.visibleIdx } = s ∧
    ∀ b' v', (publish b' v' t).visibleIdx = s.visibleIdx ∧ (publish b' v' t).buf.read s.visibleIdx = ⟨b', v'⟩ ∧
      (publish b' v' t).buf.read (1 - s.visibleIdx) = ⟨b, v⟩) ∧
  ∀ c : Config, let t := publish 0x0400 true (State.resetWith c)
    t.buf.read 1 = ⟨0x0400, true⟩ ∧ t.visibleIdx = 1 ∧ t.buf.read 0 = ⟨0, false⟩

/-- `TAKE` answers `OK` with the visible entry, `valid` in bit 31 and the `D` bits at the low end, and changes nothing
(R143). -/
def Obligations.TakeReturnsTheVisibleEntry : Prop :=
  ∀ s : State, exec .take s = .next { s with
    responses := s.responses ++ [BitVec.ofNat 35 ((s.buf.read s.visibleIdx).valid.toNat * 2 ^ 31 +
      (s.buf.read s.visibleIdx).bits.toNat % 2 ^ s.cfg.profile.dataBits)] }

/-- Any operations with no `publish` among them leave the visible entry as it is, so that `TAKE` gives the same answer
after them: reading does not consume (R52, R144). -/
def Obligations.WithoutPublishTakeRepeatsItsAnswer : Prop :=
  ∀ (ops : List Instr) (s t : State), publishCount ops s = 0 → runOps ops s = .next t →
    t.buf = s.buf ∧ t.visible = s.visible ∧
    ∃ r, exec .take s = .next { s with responses := s.responses ++ [r] } ∧
      exec .take t = .next { t with responses := t.responses ++ [r] }

/-! ### The temperature decoder (43_temperature_decoder.md) -/

/-- `TempOf` (R153): the linear map; the bounds at the ends, strictly increasing, one quantisation step from each payload
to the next; never outside `LOW_C` to `HIGH_C` (R157). The rule's example. -/
def Obligations.TempOfIsTheLinearMap : Prop :=
  (∀ p : Profile,
    (∀ a : Nat, tempOf p a =
      (p.lowC : Rat) + (a : Rat) * ((p.highC : Rat) - (p.lowC : Rat)) / ((2 : Rat) ^ p.payloadWidth - 1)) ∧
    tempOf p 0 = (p.lowC : Rat) ∧ tempOf p (2 ^ p.payloadWidth - 1) = (p.highC : Rat) ∧
    (∀ a b : Nat, a < b → tempOf p a < tempOf p b) ∧
    (∀ a : Nat, tempOf p (a + 1) - tempOf p a = ((p.highC : Rat) - (p.lowC : Rat)) / ((2 : Rat) ^ p.payloadWidth - 1)) ∧
    ∀ a : Nat, a < 2 ^ p.payloadWidth → (p.lowC : Rat) ≤ tempOf p a ∧ tempOf p a ≤ (p.highC : Rat)) ∧
  tempOf .full14 8192 = 819250 / 16383

/-- Encoding a temperature in the range of the profile (R91) and decoding the payload returns a value within half a
quantisation step of it, and the payload fits its field. -/
def Obligations.EncodedTemperatureDecodesWithinHalfAStep : Prop :=
  ∀ (p : Profile) (t : Rat), (p.lowC : Rat) ≤ t → t ≤ (p.highC : Rat) →
    payloadFor p t < 2 ^ p.payloadWidth ∧
    2 * |tempOf p (payloadFor p t) - t| ≤ ((p.highC : Rat) - (p.lowC : Rat)) / ((2 : Rat) ^ p.payloadWidth - 1)

/-- `Decode` (R154): `Misreading` exactly when `valid` = 0; the temperature of the low `N` bits otherwise, whatever the
control bits. The rule's example. -/
def Obligations.DecodeFailsExactlyOnInvalidEntries : Prop :=
  (∀ (p : Profile) (e : RawFrame), (decodeFrame p e = none ↔ e.valid = false) ∧
    (e.valid = true → decodeFrame p e = some ((p.lowC : Rat) + ((e.bits.toNat % 2 ^ p.payloadWidth : Nat) : Rat) *
      ((p.highC : Rat) - (p.lowC : Rat)) / ((2 : Rat) ^ p.payloadWidth - 1))) ∧
    ∀ b : FrameBits, b.toNat % 2 ^ p.payloadWidth = e.bits.toNat % 2 ^ p.payloadWidth →
      decodeFrame p ⟨b, e.valid⟩ = decodeFrame p e) ∧
  decodeFrame .full11 ⟨0x0400, true⟩ = some (102450 / 2047) ∧ decodeFrame .full11 ⟨0x0400, false⟩ = none

/-- The rational guard of R155 agrees with its "equivalent integer form": with a reference, and with
`RATE_C_PER_S = a/b`, implausible exactly when `dp · (HIGH_C − LOW_C) · 10^6 · b > a · dt · (2^N − 1)`. -/
def Obligations.PlausibleAgreesWithItsIntegerForm : Prop :=
  ∀ (s : State) (payload : Nat) (now : Nat), s.repValid = true →
    (plausible s (tempOf s.cfg.profile payload) now = false ↔
      (s.cfg.rate.num * interval s.cfg.widths now s.lastReportedTimestamp * (2 ^ s.cfg.profile.payloadWidth - 1) : Nat) <
        ((payload : Int) - (s.lastReportedPayload.toNat : Int)).natAbs *
          (s.cfg.profile.highC - s.cfg.profile.lowC).toNat * 10 ^ 6 * (s.cfg.rate.denPred + 1))

/-- The recommended `TempEncode` (R156): on every temperature that a payload can give, the word is a normal binary32
number of the right sign, no neighbour is nearer, and a tie goes to the even fraction. That the model computes the
recommended instance, and the layout of binary32 (93_implementation_defined.md K3, which the spec takes from general
knowledge), are the model's choice (log 10). -/
def Obligations.RecommendedEncodingRoundsToNearestEven : Prop :=
  ∀ (p : Profile) (payload : Nat), payload < 2 ^ p.payloadWidth →
    let t := tempOf p payload
    let w := tempEncode .binary32 t
    1 ≤ w.toNat / 2 ^ 23 % 256 ∧ w.toNat / 2 ^ 23 % 256 ≤ 254 ∧ (w.getLsbD 31 = true ↔ t < 0) ∧
    2 * |binary32Value w - t| ≤ binary32Unit w ∧
    (2 * |binary32Value w - t| = binary32Unit w → w.toNat % 2 = 0)

/-! ### The connection monitor (44_connection_monitor.md) -/

/-- `ISCONN` (R173) answers `OK` with 1 exactly when a valid frame has been heard and its age is at most the timeout,
inclusive, and writes nothing. The rule's examples, with `TS_W` = 32. -/
def Obligations.IsconnAnswersWhetherTheHeartbeatIsRecent : Prop :=
  (∀ (s : State) (now : Nat) (tmo : Nat), exec (.isconn now tmo) s = .next { s with
    responses := s.responses ++
      [if s.hbValid = true ∧ interval s.cfg.widths now s.lastHeartbeatTimestamp ≤ tmo * 1000 then 1 else 0] }) ∧
  ∀ s : State, s.hbValid = true → s.lastHeartbeatTimestamp = 103965 → s.cfg.widths.ts = 32 →
    exec (.isconn 1103965 1000) s = .next { s with responses := s.responses ++ [1] } ∧
    exec (.isconn 1103966 1000) s = .next { s with responses := s.responses ++ [0] }

/-- The corner cases of `Connected` (R172): never before the first valid frame; with timeout 0 only at the heartbeat
itself; with a timeout of `2^TS_W − 1` µs or more always, once a frame has been heard, which with `TS_W` = 32 is
4294968 ms or more. -/
def Obligations.ConnectedCornerCases : Prop :=
  ∀ (s : State) (now : Nat) (tmo : Nat),
    (s.hbValid = false → connected s now tmo = false) ∧
    (s.hbValid = true → now < 2 ^ s.cfg.widths.ts → s.lastHeartbeatTimestamp < 2 ^ s.cfg.widths.ts →
      (connected s now 0 = true ↔ now = s.lastHeartbeatTimestamp)) ∧
    (s.hbValid = true → 2 ^ s.cfg.widths.ts - 1 ≤ tmo * 1000 → connected s now tmo = true) ∧
    (s.hbValid = true → s.cfg.widths.ts = 32 → 4294968 ≤ tmo → connected s now tmo = true)

/-- By true times (R172, R10, R241): while less than `2^TS_W` µs have elapsed since the last valid frame, `Connected` is
true exactly when no more than `timeoutMs` · 1000 µs have; afterwards the elapsed time is taken modulo `2^TS_W`. -/
def Obligations.ConnectedMeasuresTrueElapsedTime : Prop :=
  ∀ (s : State) (heard now : Nat) (tmo : Nat), s.hbValid = true →
    s.lastHeartbeatTimestamp = stampOf s.cfg.widths heard → TimesNeverDecrease [heard, now] →
    (now - heard < 2 ^ s.cfg.widths.ts →
      (connected s (stampOf s.cfg.widths now) tmo = true ↔ now - heard ≤ tmo * 1000)) ∧
    (connected s (stampOf s.cfg.widths now) tmo = true ↔ (now - heard) % 2 ^ s.cfg.widths.ts ≤ tmo * 1000)

/-! ### Control and read (45_control_and_read.md) -/

/-- `BEGIN` (R181): with `attachOk` = 1 it arms, sets `IDLE`, forgets the last edge, keeps everything else and answers
`OK`; with `attachOk` = 0 it answers `BeginFailed` and changes nothing. From reset it only arms. -/
def Obligations.BeginArmsOrFails : Prop :=
  (∀ s : State,
    exec (.beginOp true) s = .next { s with
      armed := true, phase := .idle, lastEdgeValid := false, responses := s.responses ++ [0] } ∧
    exec (.beginOp false) s = .next { s with responses := s.responses ++ [0x300000000] }) ∧
  ∀ c : Config, exec (.beginOp true) (State.resetWith c) =
    .next { State.resetWith c with armed := true, responses := [0] }

/-- `END` (R182) disarms, changes nothing else and always answers `OK`; after it no edges have any effect. -/
def Obligations.EndStopsAllProducerActivity : Prop :=
  ∀ (s : State) (edges : List Instr), (∀ i ∈ edges, i.port = .producer) →
    exec .endOp s = .next { s with armed := false, responses := s.responses ++ [0] } ∧
    runOps (.endOp :: edges) s = .next { s with armed := false, responses := s.responses ++ [0] }

/-- `READ` on the `OK` path (R185): connected, valid and plausible. It answers `TempEncode` of the temperature, remembers
the payload and the time, and changes nothing else. -/
def Obligations.ReadReportsThePlausibleTemperature : Prop :=
  ∀ (s : State) (now : Nat) (tmo : Nat),
    let p := s.cfg.profile
    let payload := (s.buf.read s.visibleIdx).bits.toNat % 2 ^ p.payloadWidth
    let temp : Rat :=
      (p.lowC : Rat) + (payload : Rat) * ((p.highC : Rat) - (p.lowC : Rat)) / ((2 : Rat) ^ p.payloadWidth - 1)
    s.hbValid = true → interval s.cfg.widths now s.lastHeartbeatTimestamp ≤ tmo * 1000 →
    (s.buf.read s.visibleIdx).valid = true →
    (s.repValid = false ∨ |temp - tempOf p s.lastReportedPayload.toNat| * 1000000 ≤
      s.cfg.rate.value * (interval s.cfg.widths now s.lastReportedTimestamp : Rat)) →
    exec (.read now tmo) s = .next { s with
      repValid := true
      lastReportedPayload := BitVec.ofNat 14 payload
      lastReportedTimestamp := now
      responses := s.responses ++ [BitVec.ofNat 35 (tempEncode s.cfg.tempFormat temp).toNat] }

/-- `NotConnected` (R201): `READ` answers it, and changes nothing, exactly when no valid frame has ever completed or the
last one is older than the timeout; no other operation answers it. -/
def Obligations.ReadAnswersNotConnectedExactlyWithoutARecentFrame : Prop :=
  (∀ (s : State) (now : Nat) (tmo : Nat),
    exec (.read now tmo) s = .next { s with responses := s.responses ++ [0x100000000] } ↔
      s.hbValid = false ∨ tmo * 1000 < interval s.cfg.widths now s.lastHeartbeatTimestamp) ∧
  ∀ (i : Instr) (s t : State) (r : RspWord), exec i s = .next t → t.responses = s.responses ++ [r] →
    r.toNat / 2 ^ 32 = 1 → ∃ now tmo, i = .read now tmo

/-- `Misreading` (R202): `READ` answers it, and changes nothing, exactly when the block is connected and the visible entry
is invalid or its temperature implausible. -/
def Obligations.ReadAnswersMisreadingExactlyOnBadFrames : Prop :=
  ∀ (s : State) (now : Nat) (tmo : Nat),
    exec (.read now tmo) s = .next { s with responses := s.responses ++ [0x200000000] } ↔
      connected s now tmo = true ∧ (s.visible.valid = false ∨
        plausible s (tempOf s.cfg.profile (s.visible.bits.toNat % 2 ^ s.cfg.profile.payloadWidth)) now = false)

/-- The plausibility property (R160): after a `READ` that reported `TempOf(p1)`, and any edges and queries but no `READ`,
a connected `READ` of a valid entry with payload `p2` answers `Misreading` exactly when the change is more than the rate
allows in the time between the two reads. -/
def Obligations.SecondReadIsMisreadingExactlyWhenTheChangeIsTooFast : Prop :=
  ∀ (s1 s2 s3 : State) (ops : List Instr) (now1 now2 : Nat) (tmo1 tmo2 : Nat),
    exec (.read now1 tmo1) s1 = .next s2 → s2.responses.getLast?.map (·.toNat / 2 ^ 32) = some 0 →
    (∀ now tmo, Instr.read now tmo ∉ ops) → runOps ops s2 = .next s3 →
    s3.visible.valid = true → connected s3 now2 tmo2 = true →
    let p := s1.cfg.profile
    let p1 := s1.visible.bits.toNat % 2 ^ p.payloadWidth
    let p2 := s3.visible.bits.toNat % 2 ^ p.payloadWidth
    (exec (.read now2 tmo2) s3 = .next { s3 with responses := s3.responses ++ [0x200000000] } ↔
      s1.cfg.rate.value * (interval s1.cfg.widths now2 now1 : Rat) < |tempOf p p2 - tempOf p p1| * 1000000)

/-- What the consumer cannot write (R60, R217, R218): the assembler's data registers, the threshold, the frame buffer,
the heartbeat; `phase` and `lastEdgeValid` only by `BEGIN`, `armed` only by `BEGIN` and `END`, the reported reading only
by `READ`. -/
def Obligations.ConsumerWritesNoProducerState : Prop :=
  ∀ (i : Instr) (s t : State), i.port = .consumer → exec i s = .next t →
    t.bitPosition = s.bitPosition ∧ t.parityAccumulator = s.parityAccumulator ∧ t.accumulator = s.accumulator ∧
    t.lastEdgeTimestamp = s.lastEdgeTimestamp ∧ t.thresholdMicros = s.thresholdMicros ∧
    (∀ a, t.buf.read a = s.buf.read a) ∧ t.visibleIdx = s.visibleIdx ∧ t.hbValid = s.hbValid ∧
    t.lastHeartbeatTimestamp = s.lastHeartbeatTimestamp ∧ t.cfg = s.cfg ∧ t.pending = s.pending ∧
    ((∀ a, i ≠ .beginOp a) → t.phase = s.phase ∧ t.lastEdgeValid = s.lastEdgeValid) ∧
    ((∀ a, i ≠ .beginOp a) → i ≠ .endOp → t.armed = s.armed) ∧
    ((∀ now tmo, i ≠ .read now tmo) → t.repValid = s.repValid ∧ t.lastReportedPayload = s.lastReportedPayload ∧
      t.lastReportedTimestamp = s.lastReportedTimestamp)

/-- `TAKE`, `ISCONN` and `READ` do not look at `armed` (R183): with the bit inverted they do and answer the same. -/
def Obligations.QueriesIgnoreTheArmedBit : Prop :=
  ∀ (i : Instr) (s t : State) (a : Bool),
    (i = .take ∨ (∃ now tmo, i = .isconn now tmo) ∨ ∃ now tmo, i = .read now tmo) →
    exec i s = .next t → exec i { s with armed := a } = .next { t with armed := a }

/-- Silence gives `NotConnected` (R186, R174): after any commands but no edges, a `READ` answers `NotConnected` if no
valid frame was heard before or the last one is by then older than the timeout. -/
def Obligations.SilenceGivesNotConnected : Prop :=
  ∀ (s t : State) (ops : List Instr) (now : Nat) (tmo : Nat), (∀ i ∈ ops, i.port = .consumer) →
    runOps ops s = .next t →
    (s.hbValid = false ∨ tmo * 1000 < interval s.cfg.widths now s.lastHeartbeatTimestamp) →
    exec (.read now tmo) t = .next { t with responses := t.responses ++ [0x100000000] }

/-- What no rule reads cannot be observed: two states that differ only in the hidden entry (R58), in registers guarded by
a clear valid bit (R43) and in the assembler's data registers outside a frame (R231) give the same responses to every
sequence of operations, and stay so related. -/
def Obligations.HiddenStateIsUnobservable : Prop :=
  ∀ (ops : List Instr) (s t s' : State), SameObservable s t → runOps ops s = .next s' →
    ∃ t', runOps ops t = .next t' ∧ t'.responses = s'.responses ∧ SameObservable s' t'
end

