-- ==== Sys2Proof/Laws/State.lean ====
section
/-! SUPPORT. One lemma per field per update: what each shared operation leaves in each field of the state. All are true by
`rfl`, so that no later proof unfolds a record update. -/

namespace Sys2Proof.Machine

variable (s : State)

/-! ### `publish` -/

@[simp] theorem publish_cfg (b : FrameBits) (v : Bool) : (publish b v s).cfg = s.cfg := rfl
@[simp] theorem publish_phase (b : FrameBits) (v : Bool) : (publish b v s).phase = s.phase := rfl
@[simp] theorem publish_bitPosition (b : FrameBits) (v : Bool) : (publish b v s).bitPosition = s.bitPosition := rfl
@[simp] theorem publish_parityAccumulator (b : FrameBits) (v : Bool) :
    (publish b v s).parityAccumulator = s.parityAccumulator := rfl
@[simp] theorem publish_accumulator (b : FrameBits) (v : Bool) : (publish b v s).accumulator = s.accumulator := rfl
@[simp] theorem publish_lastEdgeValid (b : FrameBits) (v : Bool) :
    (publish b v s).lastEdgeValid = s.lastEdgeValid := rfl
@[simp] theorem publish_lastEdgeTimestamp (b : FrameBits) (v : Bool) :
    (publish b v s).lastEdgeTimestamp = s.lastEdgeTimestamp := rfl
@[simp] theorem publish_thresholdMicros (b : FrameBits) (v : Bool) :
    (publish b v s).thresholdMicros = s.thresholdMicros := rfl
@[simp] theorem publish_buf (b : FrameBits) (v : Bool) : (publish b v s).buf = s.buf.write s.writeIdx ⟨b, v⟩ := rfl
@[simp] theorem publish_visibleIdx (b : FrameBits) (v : Bool) : (publish b v s).visibleIdx = s.writeIdx := rfl
@[simp] theorem publish_hbValid (b : FrameBits) (v : Bool) : (publish b v s).hbValid = s.hbValid := rfl
@[simp] theorem publish_lastHeartbeatTimestamp (b : FrameBits) (v : Bool) :
    (publish b v s).lastHeartbeatTimestamp = s.lastHeartbeatTimestamp := rfl
@[simp] theorem publish_repValid (b : FrameBits) (v : Bool) : (publish b v s).repValid = s.repValid := rfl
@[simp] theorem publish_lastReportedPayload (b : FrameBits) (v : Bool) :
    (publish b v s).lastReportedPayload = s.lastReportedPayload := rfl
@[simp] theorem publish_lastReportedTimestamp (b : FrameBits) (v : Bool) :
    (publish b v s).lastReportedTimestamp = s.lastReportedTimestamp := rfl
@[simp] theorem publish_armed (b : FrameBits) (v : Bool) : (publish b v s).armed = s.armed := rfl
@[simp] theorem publish_pending (b : FrameBits) (v : Bool) : (publish b v s).pending = s.pending := rfl
@[simp] theorem publish_responses (b : FrameBits) (v : Bool) : (publish b v s).responses = s.responses := rfl

/-! ### `recordFrame` -/

@[simp] theorem recordFrame_cfg (ts : Nat) : (recordFrame ts s).cfg = s.cfg := rfl
@[simp] theorem recordFrame_phase (ts : Nat) : (recordFrame ts s).phase = s.phase := rfl
@[simp] theorem recordFrame_bitPosition (ts : Nat) : (recordFrame ts s).bitPosition = s.bitPosition := rfl
@[simp] theorem recordFrame_parityAccumulator (ts : Nat) :
    (recordFrame ts s).parityAccumulator = s.parityAccumulator := rfl
@[simp] theorem recordFrame_accumulator (ts : Nat) : (recordFrame ts s).accumulator = s.accumulator := rfl
@[simp] theorem recordFrame_lastEdgeValid (ts : Nat) : (recordFrame ts s).lastEdgeValid = s.lastEdgeValid := rfl
@[simp] theorem recordFrame_lastEdgeTimestamp (ts : Nat) :
    (recordFrame ts s).lastEdgeTimestamp = s.lastEdgeTimestamp := rfl
@[simp] theorem recordFrame_thresholdMicros (ts : Nat) : (recordFrame ts s).thresholdMicros = s.thresholdMicros := rfl
@[simp] theorem recordFrame_buf (ts : Nat) : (recordFrame ts s).buf = s.buf := rfl
@[simp] theorem recordFrame_visibleIdx (ts : Nat) : (recordFrame ts s).visibleIdx = s.visibleIdx := rfl
@[simp] theorem recordFrame_hbValid (ts : Nat) : (recordFrame ts s).hbValid = true := rfl
@[simp] theorem recordFrame_lastHeartbeatTimestamp (ts : Nat) : (recordFrame ts s).lastHeartbeatTimestamp = ts := rfl
@[simp] theorem recordFrame_repValid (ts : Nat) : (recordFrame ts s).repValid = s.repValid := rfl
@[simp] theorem recordFrame_lastReportedPayload (ts : Nat) :
    (recordFrame ts s).lastReportedPayload = s.lastReportedPayload := rfl
@[simp] theorem recordFrame_lastReportedTimestamp (ts : Nat) :
    (recordFrame ts s).lastReportedTimestamp = s.lastReportedTimestamp := rfl
@[simp] theorem recordFrame_armed (ts : Nat) : (recordFrame ts s).armed = s.armed := rfl
@[simp] theorem recordFrame_pending (ts : Nat) : (recordFrame ts s).pending = s.pending := rfl
@[simp] theorem recordFrame_responses (ts : Nat) : (recordFrame ts s).responses = s.responses := rfl

/-! ### `respond` -/

@[simp] theorem respond_cfg (d : DataWord) : (respond d s).cfg = s.cfg := rfl
@[simp] theorem respond_phase (d : DataWord) : (respond d s).phase = s.phase := rfl
@[simp] theorem respond_bitPosition (d : DataWord) : (respond d s).bitPosition = s.bitPosition := rfl
@[simp] theorem respond_parityAccumulator (d : DataWord) : (respond d s).parityAccumulator = s.parityAccumulator := rfl
@[simp] theorem respond_accumulator (d : DataWord) : (respond d s).accumulator = s.accumulator := rfl
@[simp] theorem respond_lastEdgeValid (d : DataWord) : (respond d s).lastEdgeValid = s.lastEdgeValid := rfl
@[simp] theorem respond_lastEdgeTimestamp (d : DataWord) : (respond d s).lastEdgeTimestamp = s.lastEdgeTimestamp := rfl
@[simp] theorem respond_thresholdMicros (d : DataWord) : (respond d s).thresholdMicros = s.thresholdMicros := rfl
@[simp] theorem respond_buf (d : DataWord) : (respond d s).buf = s.buf := rfl
@[simp] theorem respond_visibleIdx (d : DataWord) : (respond d s).visibleIdx = s.visibleIdx := rfl
@[simp] theorem respond_hbValid (d : DataWord) : (respond d s).hbValid = s.hbValid := rfl
@[simp] theorem respond_lastHeartbeatTimestamp (d : DataWord) :
    (respond d s).lastHeartbeatTimestamp = s.lastHeartbeatTimestamp := rfl
@[simp] theorem respond_repValid (d : DataWord) : (respond d s).repValid = s.repValid := rfl
@[simp] theorem respond_lastReportedPayload (d : DataWord) :
    (respond d s).lastReportedPayload = s.lastReportedPayload := rfl
@[simp] theorem respond_lastReportedTimestamp (d : DataWord) :
    (respond d s).lastReportedTimestamp = s.lastReportedTimestamp := rfl
@[simp] theorem respond_armed (d : DataWord) : (respond d s).armed = s.armed := rfl
@[simp] theorem respond_pending (d : DataWord) : (respond d s).pending = s.pending := rfl
@[simp] theorem respond_responses (d : DataWord) : (respond d s).responses = s.responses ++ [packRsp .ok d] := rfl

/-! ### `raise` -/

@[simp] theorem raise_cfg (st : Status) : (raise st s).cfg = s.cfg := rfl
@[simp] theorem raise_phase (st : Status) : (raise st s).phase = s.phase := rfl
@[simp] theorem raise_bitPosition (st : Status) : (raise st s).bitPosition = s.bitPosition := rfl
@[simp] theorem raise_parityAccumulator (st : Status) : (raise st s).parityAccumulator = s.parityAccumulator := rfl
@[simp] theorem raise_accumulator (st : Status) : (raise st s).accumulator = s.accumulator := rfl
@[simp] theorem raise_lastEdgeValid (st : Status) : (raise st s).lastEdgeValid = s.lastEdgeValid := rfl
@[simp] theorem raise_lastEdgeTimestamp (st : Status) : (raise st s).lastEdgeTimestamp = s.lastEdgeTimestamp := rfl
@[simp] theorem raise_thresholdMicros (st : Status) : (raise st s).thresholdMicros = s.thresholdMicros := rfl
@[simp] theorem raise_buf (st : Status) : (raise st s).buf = s.buf := rfl
@[simp] theorem raise_visibleIdx (st : Status) : (raise st s).visibleIdx = s.visibleIdx := rfl
@[simp] theorem raise_hbValid (st : Status) : (raise st s).hbValid = s.hbValid := rfl
@[simp] theorem raise_lastHeartbeatTimestamp (st : Status) :
    (raise st s).lastHeartbeatTimestamp = s.lastHeartbeatTimestamp := rfl
@[simp] theorem raise_repValid (st : Status) : (raise st s).repValid = s.repValid := rfl
@[simp] theorem raise_lastReportedPayload (st : Status) :
    (raise st s).lastReportedPayload = s.lastReportedPayload := rfl
@[simp] theorem raise_lastReportedTimestamp (st : Status) :
    (raise st s).lastReportedTimestamp = s.lastReportedTimestamp := rfl
@[simp] theorem raise_armed (st : Status) : (raise st s).armed = s.armed := rfl
@[simp] theorem raise_pending (st : Status) : (raise st s).pending = s.pending := rfl
@[simp] theorem raise_responses (st : Status) : (raise st s).responses = s.responses ++ [packRsp st 0] := rfl

/-! ### `enterFrameError` -/

@[simp] theorem enterFrameError_cfg : (enterFrameError s).cfg = s.cfg := rfl
@[simp] theorem enterFrameError_phase : (enterFrameError s).phase = .frameError := rfl
@[simp] theorem enterFrameError_bitPosition : (enterFrameError s).bitPosition = s.bitPosition := rfl
@[simp] theorem enterFrameError_parityAccumulator : (enterFrameError s).parityAccumulator = s.parityAccumulator := rfl
@[simp] theorem enterFrameError_accumulator : (enterFrameError s).accumulator = s.accumulator := rfl
@[simp] theorem enterFrameError_lastEdgeValid : (enterFrameError s).lastEdgeValid = s.lastEdgeValid := rfl
@[simp] theorem enterFrameError_lastEdgeTimestamp : (enterFrameError s).lastEdgeTimestamp = s.lastEdgeTimestamp := rfl
@[simp] theorem enterFrameError_thresholdMicros : (enterFrameError s).thresholdMicros = s.thresholdMicros := rfl
@[simp] theorem enterFrameError_buf : (enterFrameError s).buf = s.buf.write s.writeIdx ⟨s.accumulator, false⟩ := rfl
@[simp] theorem enterFrameError_visibleIdx : (enterFrameError s).visibleIdx = s.writeIdx := rfl
@[simp] theorem enterFrameError_hbValid : (enterFrameError s).hbValid = s.hbValid := rfl
@[simp] theorem enterFrameError_lastHeartbeatTimestamp :
    (enterFrameError s).lastHeartbeatTimestamp = s.lastHeartbeatTimestamp := rfl
@[simp] theorem enterFrameError_repValid : (enterFrameError s).repValid = s.repValid := rfl
@[simp] theorem enterFrameError_lastReportedPayload :
    (enterFrameError s).lastReportedPayload = s.lastReportedPayload := rfl
@[simp] theorem enterFrameError_lastReportedTimestamp :
    (enterFrameError s).lastReportedTimestamp = s.lastReportedTimestamp := rfl
@[simp] theorem enterFrameError_armed : (enterFrameError s).armed = s.armed := rfl
@[simp] theorem enterFrameError_pending : (enterFrameError s).pending = s.pending := rfl
@[simp] theorem enterFrameError_responses : (enterFrameError s).responses = s.responses := rfl

/-! ### `startCondition` -/

@[simp] theorem startCondition_cfg : (startCondition s).cfg = s.cfg := rfl
@[simp] theorem startCondition_phase : (startCondition s).phase = .startDetected := rfl
@[simp] theorem startCondition_bitPosition : (startCondition s).bitPosition = 0 := rfl
@[simp] theorem startCondition_parityAccumulator : (startCondition s).parityAccumulator = false := rfl
@[simp] theorem startCondition_accumulator : (startCondition s).accumulator = 0 := rfl
@[simp] theorem startCondition_lastEdgeValid : (startCondition s).lastEdgeValid = s.lastEdgeValid := rfl
@[simp] theorem startCondition_lastEdgeTimestamp : (startCondition s).lastEdgeTimestamp = s.lastEdgeTimestamp := rfl
@[simp] theorem startCondition_thresholdMicros : (startCondition s).thresholdMicros = s.thresholdMicros := rfl
@[simp] theorem startCondition_buf : (startCondition s).buf = s.buf := rfl
@[simp] theorem startCondition_visibleIdx : (startCondition s).visibleIdx = s.visibleIdx := rfl
@[simp] theorem startCondition_hbValid : (startCondition s).hbValid = s.hbValid := rfl
@[simp] theorem startCondition_lastHeartbeatTimestamp :
    (startCondition s).lastHeartbeatTimestamp = s.lastHeartbeatTimestamp := rfl
@[simp] theorem startCondition_repValid : (startCondition s).repValid = s.repValid := rfl
@[simp] theorem startCondition_lastReportedPayload :
    (startCondition s).lastReportedPayload = s.lastReportedPayload := rfl
@[simp] theorem startCondition_lastReportedTimestamp :
    (startCondition s).lastReportedTimestamp = s.lastReportedTimestamp := rfl
@[simp] theorem startCondition_armed : (startCondition s).armed = s.armed := rfl
@[simp] theorem startCondition_pending : (startCondition s).pending = s.pending := rfl
@[simp] theorem startCondition_responses : (startCondition s).responses = s.responses := rfl

/-! ### `observeStartPulse` -/

@[simp] theorem observeStartPulse_cfg (w : Nat) : (observeStartPulse w s).cfg = s.cfg := rfl
@[simp] theorem observeStartPulse_phase (w : Nat) : (observeStartPulse w s).phase = s.phase := rfl
@[simp] theorem observeStartPulse_bitPosition (w : Nat) : (observeStartPulse w s).bitPosition = s.bitPosition := rfl
@[simp] theorem observeStartPulse_parityAccumulator (w : Nat) :
    (observeStartPulse w s).parityAccumulator = s.parityAccumulator := rfl
@[simp] theorem observeStartPulse_accumulator (w : Nat) : (observeStartPulse w s).accumulator = s.accumulator := rfl
@[simp] theorem observeStartPulse_lastEdgeValid (w : Nat) :
    (observeStartPulse w s).lastEdgeValid = s.lastEdgeValid := rfl
@[simp] theorem observeStartPulse_lastEdgeTimestamp (w : Nat) :
    (observeStartPulse w s).lastEdgeTimestamp = s.lastEdgeTimestamp := rfl
@[simp] theorem observeStartPulse_thresholdMicros (w : Nat) :
    (observeStartPulse w s).thresholdMicros = nextThreshold s.cfg.widths w s.thresholdMicros := rfl
@[simp] theorem observeStartPulse_buf (w : Nat) : (observeStartPulse w s).buf = s.buf := rfl
@[simp] theorem observeStartPulse_visibleIdx (w : Nat) : (observeStartPulse w s).visibleIdx = s.visibleIdx := rfl
@[simp] theorem observeStartPulse_hbValid (w : Nat) : (observeStartPulse w s).hbValid = s.hbValid := rfl
@[simp] theorem observeStartPulse_lastHeartbeatTimestamp (w : Nat) :
    (observeStartPulse w s).lastHeartbeatTimestamp = s.lastHeartbeatTimestamp := rfl
@[simp] theorem observeStartPulse_repValid (w : Nat) : (observeStartPulse w s).repValid = s.repValid := rfl
@[simp] theorem observeStartPulse_lastReportedPayload (w : Nat) :
    (observeStartPulse w s).lastReportedPayload = s.lastReportedPayload := rfl
@[simp] theorem observeStartPulse_lastReportedTimestamp (w : Nat) :
    (observeStartPulse w s).lastReportedTimestamp = s.lastReportedTimestamp := rfl
@[simp] theorem observeStartPulse_armed (w : Nat) : (observeStartPulse w s).armed = s.armed := rfl
@[simp] theorem observeStartPulse_pending (w : Nat) : (observeStartPulse w s).pending = s.pending := rfl
@[simp] theorem observeStartPulse_responses (w : Nat) : (observeStartPulse w s).responses = s.responses := rfl

/-! ### `recordFirstEdge` -/

@[simp] theorem recordFirstEdge_cfg (ts : Nat) : (recordFirstEdge ts s).cfg = s.cfg := rfl
@[simp] theorem recordFirstEdge_phase (ts : Nat) : (recordFirstEdge ts s).phase = s.phase := rfl
@[simp] theorem recordFirstEdge_bitPosition (ts : Nat) : (recordFirstEdge ts s).bitPosition = s.bitPosition := rfl
@[simp] theorem recordFirstEdge_parityAccumulator (ts : Nat) :
    (recordFirstEdge ts s).parityAccumulator = s.parityAccumulator := rfl
@[simp] theorem recordFirstEdge_accumulator (ts : Nat) : (recordFirstEdge ts s).accumulator = s.accumulator := rfl
@[simp] theorem recordFirstEdge_lastEdgeValid (ts : Nat) : (recordFirstEdge ts s).lastEdgeValid = true := rfl
@[simp] theorem recordFirstEdge_lastEdgeTimestamp (ts : Nat) : (recordFirstEdge ts s).lastEdgeTimestamp = ts := rfl
@[simp] theorem recordFirstEdge_thresholdMicros (ts : Nat) :
    (recordFirstEdge ts s).thresholdMicros = s.thresholdMicros := rfl
@[simp] theorem recordFirstEdge_buf (ts : Nat) : (recordFirstEdge ts s).buf = s.buf := rfl
@[simp] theorem recordFirstEdge_visibleIdx (ts : Nat) : (recordFirstEdge ts s).visibleIdx = s.visibleIdx := rfl
@[simp] theorem recordFirstEdge_hbValid (ts : Nat) : (recordFirstEdge ts s).hbValid = s.hbValid := rfl
@[simp] theorem recordFirstEdge_lastHeartbeatTimestamp (ts : Nat) :
    (recordFirstEdge ts s).lastHeartbeatTimestamp = s.lastHeartbeatTimestamp := rfl
@[simp] theorem recordFirstEdge_repValid (ts : Nat) : (recordFirstEdge ts s).repValid = s.repValid := rfl
@[simp] theorem recordFirstEdge_lastReportedPayload (ts : Nat) :
    (recordFirstEdge ts s).lastReportedPayload = s.lastReportedPayload := rfl
@[simp] theorem recordFirstEdge_lastReportedTimestamp (ts : Nat) :
    (recordFirstEdge ts s).lastReportedTimestamp = s.lastReportedTimestamp := rfl
@[simp] theorem recordFirstEdge_armed (ts : Nat) : (recordFirstEdge ts s).armed = s.armed := rfl
@[simp] theorem recordFirstEdge_pending (ts : Nat) : (recordFirstEdge ts s).pending = s.pending := rfl
@[simp] theorem recordFirstEdge_responses (ts : Nat) : (recordFirstEdge ts s).responses = s.responses := rfl

/-! ### `takeStartPulse` -/

@[simp] theorem takeStartPulse_cfg (w : Nat) : (takeStartPulse w s).cfg = s.cfg := rfl
@[simp] theorem takeStartPulse_phase (w : Nat) : (takeStartPulse w s).phase = .receiving := rfl
@[simp] theorem takeStartPulse_bitPosition (w : Nat) : (takeStartPulse w s).bitPosition = s.bitPosition := rfl
@[simp] theorem takeStartPulse_parityAccumulator (w : Nat) :
    (takeStartPulse w s).parityAccumulator = s.parityAccumulator := rfl
@[simp] theorem takeStartPulse_accumulator (w : Nat) : (takeStartPulse w s).accumulator = s.accumulator := rfl
@[simp] theorem takeStartPulse_lastEdgeValid (w : Nat) : (takeStartPulse w s).lastEdgeValid = s.lastEdgeValid := rfl
@[simp] theorem takeStartPulse_lastEdgeTimestamp (w : Nat) :
    (takeStartPulse w s).lastEdgeTimestamp = s.lastEdgeTimestamp := rfl
@[simp] theorem takeStartPulse_thresholdMicros (w : Nat) :
    (takeStartPulse w s).thresholdMicros = nextThreshold s.cfg.widths w s.thresholdMicros := rfl
@[simp] theorem takeStartPulse_buf (w : Nat) : (takeStartPulse w s).buf = s.buf := rfl
@[simp] theorem takeStartPulse_visibleIdx (w : Nat) : (takeStartPulse w s).visibleIdx = s.visibleIdx := rfl
@[simp] theorem takeStartPulse_hbValid (w : Nat) : (takeStartPulse w s).hbValid = s.hbValid := rfl
@[simp] theorem takeStartPulse_lastHeartbeatTimestamp (w : Nat) :
    (takeStartPulse w s).lastHeartbeatTimestamp = s.lastHeartbeatTimestamp := rfl
@[simp] theorem takeStartPulse_repValid (w : Nat) : (takeStartPulse w s).repValid = s.repValid := rfl
@[simp] theorem takeStartPulse_lastReportedPayload (w : Nat) :
    (takeStartPulse w s).lastReportedPayload = s.lastReportedPayload := rfl
@[simp] theorem takeStartPulse_lastReportedTimestamp (w : Nat) :
    (takeStartPulse w s).lastReportedTimestamp = s.lastReportedTimestamp := rfl
@[simp] theorem takeStartPulse_armed (w : Nat) : (takeStartPulse w s).armed = s.armed := rfl
@[simp] theorem takeStartPulse_pending (w : Nat) : (takeStartPulse w s).pending = s.pending := rfl
@[simp] theorem takeStartPulse_responses (w : Nat) : (takeStartPulse w s).responses = s.responses := rfl

/-! ### `takeDataPulse` -/

@[simp] theorem takeDataPulse_cfg (w : Nat) : (takeDataPulse w s).cfg = s.cfg := rfl
@[simp] theorem takeDataPulse_phase (w : Nat) :
    (takeDataPulse w s).phase = if isParityPosition s.cfg.profile (nextPosition s.cfg.profile s.bitPosition) then .parityCheck else .receiving := rfl
@[simp] theorem takeDataPulse_bitPosition (w : Nat) :
    (takeDataPulse w s).bitPosition = nextPosition s.cfg.profile s.bitPosition := rfl
@[simp] theorem takeDataPulse_parityAccumulator (w : Nat) :
    (takeDataPulse w s).parityAccumulator = parityWith s.parityAccumulator (classify w s.thresholdMicros) := rfl
@[simp] theorem takeDataPulse_accumulator (w : Nat) :
    (takeDataPulse w s).accumulator = shiftIn s.cfg.profile s.accumulator (classify w s.thresholdMicros) := rfl
@[simp] theorem takeDataPulse_lastEdgeValid (w : Nat) : (takeDataPulse w s).lastEdgeValid = s.lastEdgeValid := rfl
@[simp] theorem takeDataPulse_lastEdgeTimestamp (w : Nat) :
    (takeDataPulse w s).lastEdgeTimestamp = s.lastEdgeTimestamp := rfl
@[simp] theorem takeDataPulse_thresholdMicros (w : Nat) : (takeDataPulse w s).thresholdMicros = s.thresholdMicros := rfl
@[simp] theorem takeDataPulse_buf (w : Nat) : (takeDataPulse w s).buf = s.buf := rfl
@[simp] theorem takeDataPulse_visibleIdx (w : Nat) : (takeDataPulse w s).visibleIdx = s.visibleIdx := rfl
@[simp] theorem takeDataPulse_hbValid (w : Nat) : (takeDataPulse w s).hbValid = s.hbValid := rfl
@[simp] theorem takeDataPulse_lastHeartbeatTimestamp (w : Nat) :
    (takeDataPulse w s).lastHeartbeatTimestamp = s.lastHeartbeatTimestamp := rfl
@[simp] theorem takeDataPulse_repValid (w : Nat) : (takeDataPulse w s).repValid = s.repValid := rfl
@[simp] theorem takeDataPulse_lastReportedPayload (w : Nat) :
    (takeDataPulse w s).lastReportedPayload = s.lastReportedPayload := rfl
@[simp] theorem takeDataPulse_lastReportedTimestamp (w : Nat) :
    (takeDataPulse w s).lastReportedTimestamp = s.lastReportedTimestamp := rfl
@[simp] theorem takeDataPulse_armed (w : Nat) : (takeDataPulse w s).armed = s.armed := rfl
@[simp] theorem takeDataPulse_pending (w : Nat) : (takeDataPulse w s).pending = s.pending := rfl
@[simp] theorem takeDataPulse_responses (w : Nat) : (takeDataPulse w s).responses = s.responses := rfl

/-! ### `passFirstParity` -/

@[simp] theorem passFirstParity_cfg : (passFirstParity s).cfg = s.cfg := rfl
@[simp] theorem passFirstParity_phase : (passFirstParity s).phase = .receiving := rfl
@[simp] theorem passFirstParity_bitPosition : (passFirstParity s).bitPosition = s.bitPosition := rfl
@[simp] theorem passFirstParity_parityAccumulator : (passFirstParity s).parityAccumulator = false := rfl
@[simp] theorem passFirstParity_accumulator : (passFirstParity s).accumulator = s.accumulator := rfl
@[simp] theorem passFirstParity_lastEdgeValid : (passFirstParity s).lastEdgeValid = s.lastEdgeValid := rfl
@[simp] theorem passFirstParity_lastEdgeTimestamp : (passFirstParity s).lastEdgeTimestamp = s.lastEdgeTimestamp := rfl
@[simp] theorem passFirstParity_thresholdMicros : (passFirstParity s).thresholdMicros = s.thresholdMicros := rfl
@[simp] theorem passFirstParity_buf : (passFirstParity s).buf = s.buf := rfl
@[simp] theorem passFirstParity_visibleIdx : (passFirstParity s).visibleIdx = s.visibleIdx := rfl
@[simp] theorem passFirstParity_hbValid : (passFirstParity s).hbValid = s.hbValid := rfl
@[simp] theorem passFirstParity_lastHeartbeatTimestamp :
    (passFirstParity s).lastHeartbeatTimestamp = s.lastHeartbeatTimestamp := rfl
@[simp] theorem passFirstParity_repValid : (passFirstParity s).repValid = s.repValid := rfl
@[simp] theorem passFirstParity_lastReportedPayload :
    (passFirstParity s).lastReportedPayload = s.lastReportedPayload := rfl
@[simp] theorem passFirstParity_lastReportedTimestamp :
    (passFirstParity s).lastReportedTimestamp = s.lastReportedTimestamp := rfl
@[simp] theorem passFirstParity_armed : (passFirstParity s).armed = s.armed := rfl
@[simp] theorem passFirstParity_pending : (passFirstParity s).pending = s.pending := rfl
@[simp] theorem passFirstParity_responses : (passFirstParity s).responses = s.responses := rfl

/-! ### `completeFrame` -/

@[simp] theorem completeFrame_cfg (ts : Nat) : (completeFrame ts s).cfg = s.cfg := rfl
@[simp] theorem completeFrame_phase (ts : Nat) : (completeFrame ts s).phase = .frameComplete := rfl
@[simp] theorem completeFrame_bitPosition (ts : Nat) : (completeFrame ts s).bitPosition = s.bitPosition := rfl
@[simp] theorem completeFrame_parityAccumulator (ts : Nat) : (completeFrame ts s).parityAccumulator = false := rfl
@[simp] theorem completeFrame_accumulator (ts : Nat) : (completeFrame ts s).accumulator = s.accumulator := rfl
@[simp] theorem completeFrame_lastEdgeValid (ts : Nat) : (completeFrame ts s).lastEdgeValid = s.lastEdgeValid := rfl
@[simp] theorem completeFrame_lastEdgeTimestamp (ts : Nat) :
    (completeFrame ts s).lastEdgeTimestamp = s.lastEdgeTimestamp := rfl
@[simp] theorem completeFrame_thresholdMicros (ts : Nat) :
    (completeFrame ts s).thresholdMicros = s.thresholdMicros := rfl
@[simp] theorem completeFrame_buf (ts : Nat) :
    (completeFrame ts s).buf = s.buf.write s.writeIdx ⟨s.accumulator, true⟩ := rfl
@[simp] theorem completeFrame_visibleIdx (ts : Nat) : (completeFrame ts s).visibleIdx = s.writeIdx := rfl
@[simp] theorem completeFrame_hbValid (ts : Nat) : (completeFrame ts s).hbValid = true := rfl
@[simp] theorem completeFrame_lastHeartbeatTimestamp (ts : Nat) :
    (completeFrame ts s).lastHeartbeatTimestamp = ts := rfl
@[simp] theorem completeFrame_repValid (ts : Nat) : (completeFrame ts s).repValid = s.repValid := rfl
@[simp] theorem completeFrame_lastReportedPayload (ts : Nat) :
    (completeFrame ts s).lastReportedPayload = s.lastReportedPayload := rfl
@[simp] theorem completeFrame_lastReportedTimestamp (ts : Nat) :
    (completeFrame ts s).lastReportedTimestamp = s.lastReportedTimestamp := rfl
@[simp] theorem completeFrame_armed (ts : Nat) : (completeFrame ts s).armed = s.armed := rfl
@[simp] theorem completeFrame_pending (ts : Nat) : (completeFrame ts s).pending = s.pending := rfl
@[simp] theorem completeFrame_responses (ts : Nat) : (completeFrame ts s).responses = s.responses := rfl

/-! ### `recordReport` -/

@[simp] theorem recordReport_cfg (p : FrameBits) (now : Nat) : (recordReport p now s).cfg = s.cfg := rfl
@[simp] theorem recordReport_phase (p : FrameBits) (now : Nat) : (recordReport p now s).phase = s.phase := rfl
@[simp] theorem recordReport_bitPosition (p : FrameBits) (now : Nat) :
    (recordReport p now s).bitPosition = s.bitPosition := rfl
@[simp] theorem recordReport_parityAccumulator (p : FrameBits) (now : Nat) :
    (recordReport p now s).parityAccumulator = s.parityAccumulator := rfl
@[simp] theorem recordReport_accumulator (p : FrameBits) (now : Nat) :
    (recordReport p now s).accumulator = s.accumulator := rfl
@[simp] theorem recordReport_lastEdgeValid (p : FrameBits) (now : Nat) :
    (recordReport p now s).lastEdgeValid = s.lastEdgeValid := rfl
@[simp] theorem recordReport_lastEdgeTimestamp (p : FrameBits) (now : Nat) :
    (recordReport p now s).lastEdgeTimestamp = s.lastEdgeTimestamp := rfl
@[simp] theorem recordReport_thresholdMicros (p : FrameBits) (now : Nat) :
    (recordReport p now s).thresholdMicros = s.thresholdMicros := rfl
@[simp] theorem recordReport_buf (p : FrameBits) (now : Nat) : (recordReport p now s).buf = s.buf := rfl
@[simp] theorem recordReport_visibleIdx (p : FrameBits) (now : Nat) :
    (recordReport p now s).visibleIdx = s.visibleIdx := rfl
@[simp] theorem recordReport_hbValid (p : FrameBits) (now : Nat) : (recordReport p now s).hbValid = s.hbValid := rfl
@[simp] theorem recordReport_lastHeartbeatTimestamp (p : FrameBits) (now : Nat) :
    (recordReport p now s).lastHeartbeatTimestamp = s.lastHeartbeatTimestamp := rfl
@[simp] theorem recordReport_repValid (p : FrameBits) (now : Nat) : (recordReport p now s).repValid = true := rfl
@[simp] theorem recordReport_lastReportedPayload (p : FrameBits) (now : Nat) :
    (recordReport p now s).lastReportedPayload = p := rfl
@[simp] theorem recordReport_lastReportedTimestamp (p : FrameBits) (now : Nat) :
    (recordReport p now s).lastReportedTimestamp = now := rfl
@[simp] theorem recordReport_armed (p : FrameBits) (now : Nat) : (recordReport p now s).armed = s.armed := rfl
@[simp] theorem recordReport_pending (p : FrameBits) (now : Nat) : (recordReport p now s).pending = s.pending := rfl
@[simp] theorem recordReport_responses (p : FrameBits) (now : Nat) :
    (recordReport p now s).responses = s.responses := rfl

/-! ### `startSession` -/

@[simp] theorem startSession_cfg : (startSession s).cfg = s.cfg := rfl
@[simp] theorem startSession_phase : (startSession s).phase = .idle := rfl
@[simp] theorem startSession_bitPosition : (startSession s).bitPosition = s.bitPosition := rfl
@[simp] theorem startSession_parityAccumulator : (startSession s).parityAccumulator = s.parityAccumulator := rfl
@[simp] theorem startSession_accumulator : (startSession s).accumulator = s.accumulator := rfl
@[simp] theorem startSession_lastEdgeValid : (startSession s).lastEdgeValid = false := rfl
@[simp] theorem startSession_lastEdgeTimestamp : (startSession s).lastEdgeTimestamp = s.lastEdgeTimestamp := rfl
@[simp] theorem startSession_thresholdMicros : (startSession s).thresholdMicros = s.thresholdMicros := rfl
@[simp] theorem startSession_buf : (startSession s).buf = s.buf := rfl
@[simp] theorem startSession_visibleIdx : (startSession s).visibleIdx = s.visibleIdx := rfl
@[simp] theorem startSession_hbValid : (startSession s).hbValid = s.hbValid := rfl
@[simp] theorem startSession_lastHeartbeatTimestamp :
    (startSession s).lastHeartbeatTimestamp = s.lastHeartbeatTimestamp := rfl
@[simp] theorem startSession_repValid : (startSession s).repValid = s.repValid := rfl
@[simp] theorem startSession_lastReportedPayload : (startSession s).lastReportedPayload = s.lastReportedPayload := rfl
@[simp] theorem startSession_lastReportedTimestamp :
    (startSession s).lastReportedTimestamp = s.lastReportedTimestamp := rfl
@[simp] theorem startSession_armed : (startSession s).armed = true := rfl
@[simp] theorem startSession_pending : (startSession s).pending = s.pending := rfl
@[simp] theorem startSession_responses : (startSession s).responses = s.responses := rfl

/-! ### `State.resetWith` -/

@[simp] theorem resetWith_cfg (c : Config) : (State.resetWith c).cfg = c := rfl
@[simp] theorem resetWith_phase (c : Config) : (State.resetWith c).phase = .idle := rfl
@[simp] theorem resetWith_bitPosition (c : Config) : (State.resetWith c).bitPosition = 0 := rfl
@[simp] theorem resetWith_parityAccumulator (c : Config) : (State.resetWith c).parityAccumulator = false := rfl
@[simp] theorem resetWith_accumulator (c : Config) : (State.resetWith c).accumulator = 0 := rfl
@[simp] theorem resetWith_lastEdgeValid (c : Config) : (State.resetWith c).lastEdgeValid = false := rfl
@[simp] theorem resetWith_lastEdgeTimestamp (c : Config) : (State.resetWith c).lastEdgeTimestamp = 0 := rfl
@[simp] theorem resetWith_thresholdMicros (c : Config) : (State.resetWith c).thresholdMicros = c.threshReset := rfl
@[simp] theorem resetWith_buf (c : Config) : (State.resetWith c).buf = ⟨⟨0, false⟩, ⟨0, false⟩⟩ := rfl
@[simp] theorem resetWith_visibleIdx (c : Config) : (State.resetWith c).visibleIdx = 0 := rfl
@[simp] theorem resetWith_hbValid (c : Config) : (State.resetWith c).hbValid = false := rfl
@[simp] theorem resetWith_lastHeartbeatTimestamp (c : Config) : (State.resetWith c).lastHeartbeatTimestamp = 0 := rfl
@[simp] theorem resetWith_repValid (c : Config) : (State.resetWith c).repValid = false := rfl
@[simp] theorem resetWith_lastReportedPayload (c : Config) : (State.resetWith c).lastReportedPayload = 0 := rfl
@[simp] theorem resetWith_lastReportedTimestamp (c : Config) : (State.resetWith c).lastReportedTimestamp = 0 := rfl
@[simp] theorem resetWith_armed (c : Config) : (State.resetWith c).armed = false := rfl
@[simp] theorem resetWith_pending (c : Config) : (State.resetWith c).pending = [] := rfl
@[simp] theorem resetWith_responses (c : Config) : (State.resetWith c).responses = [] := rfl

end Sys2Proof.Machine
end

