-- ==== Sys2Proof/Laws/Operands.lean ====
section
/-! SUPPORT. The small lemmas of the operand and flag functions: each states once what the function computes, as a number
or as a proposition. -/

namespace Sys2Proof.Machine

/-- `D` and `N` fit the 14-bit registers, and `G1 < D` (R6). -/
theorem dataBits_le (p : Profile) : p.dataBits ≤ 14 := by cases p <;> decide

theorem payloadWidth_le (p : Profile) : p.payloadWidth ≤ 14 := by cases p <;> decide

theorem payloadWidth_le_dataBits (p : Profile) : p.payloadWidth ≤ p.dataBits := by cases p <;> decide

@[simp] theorem firstGroup_eq (p : Profile) : p.firstGroup = 9 := rfl

theorem dataBits_eq (p : Profile) : p.dataBits = 9 + p.secondGroup := rfl

theorem firstGroup_lt (p : Profile) : 9 < p.dataBits := by cases p <;> decide

theorem secondGroup_pos (p : Profile) : 0 < p.secondGroup := by cases p <;> decide

/-! ### Times (R10, R220) -/

/-- The interval as an integer: the remainder of the difference (R10). -/
theorem interval_cast (k : Widths) (a b : Nat) :
    ((interval k a b : Nat) : Int) = ((a : Int) - b) % ((2 ^ k.ts : Nat) : Int) :=
  Int.toNat_of_nonneg (Int.emod_nonneg _ (by exact_mod_cast (Nat.two_pow_pos k.ts).ne'))

/-- An interval is a number of `TS_W` bits (R10). -/
theorem interval_lt (k : Widths) (a b : Nat) : interval k a b < 2 ^ k.ts := by
  apply Int.ofNat_lt.1
  rw [interval_cast]
  exact Int.emod_lt_of_pos _ (by exact_mod_cast Nat.two_pow_pos k.ts)

/-- Without a wrap, and less than `2^TS_W` apart, the interval is the difference. -/
theorem interval_of_le (k : Widths) (a b : Nat) (h : b ≤ a) (hd : a - b < 2 ^ k.ts) : interval k a b = a - b := by
  apply Int.ofNat_inj.1
  rw [interval_cast, ← Int.natCast_sub h]
  exact Int.emod_eq_of_lt (Int.natCast_nonneg _) (Int.ofNat_lt.2 hd)

/-- An interval depends on the two times modulo `2^TS_W` only. -/
theorem interval_mod (k : Widths) (a b : Nat) : interval k (a % 2 ^ k.ts) (b % 2 ^ k.ts) = interval k a b := by
  unfold interval
  rw [Int.natCast_mod, Int.natCast_mod, ← Int.sub_emod]

/-- Of the timestamps of two true times the interval is the true elapsed time, modulo `2^TS_W` (R10). -/
theorem interval_stamps (k : Widths) (a b : Nat) (h : b ≤ a) :
    interval k (a % 2 ^ k.ts) (b % 2 ^ k.ts) = (a - b) % 2 ^ k.ts := by
  rw [interval_mod]
  apply Int.ofNat_inj.1
  rw [interval_cast, Int.natCast_mod, Int.natCast_sub h]

/-- The interval to a time `d` later is `d`. -/
theorem interval_later (k : Widths) (t d : Nat) (h : d < 2 ^ k.ts) : interval k (k.later t d) t = d := by
  apply Int.ofNat_inj.1
  rw [interval_cast, Widths.later, Int.natCast_mod, Int.emod_sub_emod, Nat.cast_add, add_sub_cancel_left]
  exact Int.emod_eq_of_lt (Int.natCast_nonneg _) (Int.ofNat_lt.2 h)

/-! ### Bit fields -/

theorem lowBits_toNat (k : Nat) (v : FrameBits) : (lowBits k v).toNat = v.toNat % 2 ^ k := by
  have h : v.toNat % 2 ^ k ≤ v.toNat := Nat.mod_le _ _
  have := v.isLt
  simp only [lowBits, BitVec.toNat_ofNat]
  exact Nat.mod_eq_of_lt (by omega)

theorem payloadOf_toNat (p : Profile) (v : FrameBits) : (payloadOf p v).toNat = v.toNat % 2 ^ p.payloadWidth :=
  lowBits_toNat _ _

theorem payloadOf_lt (p : Profile) (v : FrameBits) : (payloadOf p v).toNat < 2 ^ p.payloadWidth := by
  rw [payloadOf_toNat]
  exact Nat.mod_lt _ (Nat.two_pow_pos _)

/-- Shifting left by one and inserting a bit doubles and adds (R118). -/
theorem shiftIn_toNat (p : Profile) (a : FrameBits) (b : Bool) :
    (shiftIn p a b).toNat = (2 * a.toNat + b.toNat) % 2 ^ p.dataBits := by
  have ha := a.isLt
  have hor : ((a <<< 1) ||| BitVec.ofNat 14 b.toNat).toNat = (2 * a.toNat + b.toNat) % 2 ^ 14 := by
    have hb : b.toNat < 2 ^ 1 := by cases b <;> decide
    have h1 : (a <<< 1).toNat = (a.toNat % 2 ^ 13) * 2 ^ 1 := by
      rw [BitVec.toNat_shiftLeft, Nat.shiftLeft_eq]
      omega
    rw [BitVec.toNat_or, h1, BitVec.toNat_ofNat, Nat.mod_eq_of_lt (by omega : b.toNat < 2 ^ 14),
      Nat.mul_comm, ← Nat.two_pow_add_eq_or_of_lt hb]
    omega
  rw [shiftIn, lowBits_toNat, hor]
  exact Nat.mod_mod_of_dvd _ (Nat.pow_dvd_pow 2 (dataBits_le p))

theorem packRsp_toNat (st : Status) (d : DataWord) :
    (packRsp st d).toNat = (statusCode st).toNat * 2 ^ 32 + d.toNat := by
  have := d.isLt
  have := (statusCode st).isLt
  simp only [packRsp, BitVec.toNat_ofNat]
  omega

theorem takeData_toNat (p : Profile) (e : RawFrame) :
    (takeData p e).toNat = e.valid.toNat * 2 ^ 31 + e.bits.toNat % 2 ^ p.dataBits := by
  have h1 := (lowBits p.dataBits e.bits).isLt
  have h2 : e.valid.toNat ≤ 1 := by cases e.valid <;> decide
  simp only [takeData, BitVec.toNat_ofNat]
  rw [lowBits_toNat] at h1 ⊢
  omega

theorem isGap_iff (c : Config) (w : Nat) : isGap c w = true ↔ c.gapUs < w := decide_eq_true_iff

theorem isGap_false_iff (c : Config) (w : Nat) : isGap c w = false ↔ w ≤ c.gapUs := by
  rw [← Bool.not_eq_true, isGap_iff, Nat.not_lt]

theorem classify_iff (w t : Nat) : classify w t = true ↔ w < t := by simp [classify]

theorem isParityPosition_iff (p : Profile) (k : Nat) :
    isParityPosition p k = true ↔ k = 9 ∨ k = p.dataBits := by simp [isParityPosition]

theorem isFinalPosition_iff (p : Profile) (k : Nat) :
    isFinalPosition p k = true ↔ k = p.dataBits := by simp [isFinalPosition]

theorem nextPosition_of_lt (p : Profile) (k : Nat) (h : k < p.dataBits) : nextPosition p k = k + 1 := by
  simp [nextPosition, h]

theorem nextThreshold_eq (k : Widths) (w t : Nat) : nextThreshold k w t = (w + t / 4) % 2 ^ k.ts := by
  simp [nextThreshold, Nat.shiftRight_eq_div_pow]

theorem nextThreshold_lt (k : Widths) (w t : Nat) : nextThreshold k w t < 2 ^ k.ts :=
  Nat.mod_lt _ (Nat.two_pow_pos _)

/-- R104, for any `GAP_US`: `g` and any reset value `r`. With `g` = 1000 and `r` = 0 the bound is 1333. -/
theorem nextThreshold_le (k : Widths) (w t g r : Nat) (hw : w ≤ g) (ht : t ≤ max r (4 * g / 3)) :
    nextThreshold k w t ≤ max r (4 * g / 3) := by
  rw [nextThreshold_eq]
  refine (Nat.mod_le _ _).trans ?_
  omega

theorem connected_iff (s : State) (now : Nat) (tmo : Nat) :
    connected s now tmo = true ↔
      s.hbValid = true ∧ interval s.cfg.widths now s.lastHeartbeatTimestamp ≤ tmo * 1000 := by
  cases h : s.hbValid
  · simp [connected, h]
  · simp only [connected, h, Bool.true_eq_false, if_false, true_and]
    exact decide_eq_true_iff

theorem absDiff_eq (a b : Rat) : absDiff a b = |a - b| := by
  unfold absDiff
  split
  · rw [abs_sub_comm, abs_of_nonneg (by linarith)]
  · rw [abs_of_nonneg (by linarith)]

/-- What the guard asks, as R155 writes it. -/
theorem plausible_iff (s : State) (t : Rat) (now : Nat) :
    plausible s t now = true ↔ s.repValid = false ∨
      |t - tempOf s.cfg.profile s.lastReportedPayload.toNat| * 1000000 ≤
        s.cfg.rate.value * (interval s.cfg.widths now s.lastReportedTimestamp : Rat) := by
  cases h : s.repValid <;> simp [plausible, h, absDiff_eq]

theorem tempOf_eq (p : Profile) (n : Nat) :
    tempOf p n = (p.lowC : Rat) + (n : Rat) * ((p.highC : Rat) - (p.lowC : Rat)) / ((2 : Rat) ^ p.payloadWidth - 1) := by
  cases p <;> norm_num [tempOf, Profile.maxPayload, Profile.payloadWidth]

/-- `Decode` fails exactly on an invalid entry (R154). -/
theorem decodeFrame_eq (p : Profile) (e : RawFrame) :
    decodeFrame p e = if e.valid = true then some (tempOf p (e.bits.toNat % 2 ^ p.payloadWidth)) else none := by
  cases h : e.valid <;> simp [decodeFrame, h, payloadOf_toNat]

end Sys2Proof.Machine
end

