-- ==== Sys2Proof/Laws/Memory.lean ====
section
/-! SUPPORT. The laws of the frame buffer (20_memory.md): read after write, the two addresses, and the canonical form. -/

namespace Sys2Proof.Machine

/-- There are two addresses, and `1 − i` is the other one (R50). -/
theorem address_cases (i : BitVec 1) : i = 0 ∨ i = 1 := by revert i; decide

theorem eq_other_of_ne (a i : BitVec 1) (h : a ≠ i) : a = 1 - i := by revert a i; decide

@[simp] theorem other_ne (i : BitVec 1) : 1 - i ≠ i := by revert i; decide

@[simp] theorem ne_other (i : BitVec 1) : i ≠ 1 - i := by revert i; decide

@[simp] theorem other_other (i : BitVec 1) : 1 - (1 - i) = i := by revert i; decide

@[simp] theorem Memory.read_write_same (m : Memory) (i : BitVec 1) (e : RawFrame) : (m.write i e).read i = e := by
  rcases address_cases i with rfl | rfl <;> simp [Memory.read, Memory.write]

theorem Memory.read_write_other (m : Memory) (i a : BitVec 1) (e : RawFrame) (h : a ≠ i) :
    (m.write i e).read a = m.read a := by
  rcases address_cases i with rfl | rfl <;> rcases address_cases a with rfl | rfl <;>
    simp_all [Memory.read, Memory.write]

/-- Two buffers that read the same everywhere are equal. -/
theorem Memory.ext_read (m m' : Memory) (h : ∀ a, m.read a = m'.read a) : m = m' := by
  have h0 := h 0
  have h1 := h 1
  cases m; cases m'
  simp_all [Memory.read]

theorem Memory.wf_iff (p : Profile) (m : Memory) :
    m.wf p = true ↔ ∀ a, (m.read a).bits.toNat < 2 ^ p.dataBits := by
  constructor
  · intro h a
    rcases address_cases a with rfl | rfl <;> simp_all [Memory.wf, Memory.read]
  · intro h
    have h0 := h 0
    have h1 := h 1
    simp_all [Memory.wf, Memory.read]

/-- The one operation that writes the buffer keeps its canonical form. -/
theorem Memory.wf_write (p : Profile) (m : Memory) (i : BitVec 1) (e : RawFrame) (hm : m.wf p = true)
    (he : e.bits.toNat < 2 ^ p.dataBits) : (m.write i e).wf p = true := by
  rw [Memory.wf_iff] at hm ⊢
  intro a
  by_cases h : a = i
  · subst h; simpa using he
  · rw [Memory.read_write_other _ _ _ _ h]; exact hm a

/-- The buffer after reset has the canonical form. -/
theorem Memory.wf_reset (c : Config) : (State.resetWith c).buf.wf c.profile = true := by
  simp [Memory.wf]

@[simp] theorem writeIdx_eq (s : State) : s.writeIdx = 1 - s.visibleIdx := rfl

/-- What a `publish` makes visible (R141). -/
@[simp] theorem publish_visible (b : FrameBits) (v : Bool) (s : State) : (publish b v s).visible = ⟨b, v⟩ := by
  simp [State.visible]

/-- A `publish` leaves the entry that was visible (R141). -/
theorem publish_read_old (b : FrameBits) (v : Bool) (s : State) :
    (publish b v s).buf.read s.visibleIdx = s.visible :=
  Memory.read_write_other _ _ _ _ (ne_other s.visibleIdx)

end Sys2Proof.Machine
end

