-- ==== Sys2Proof/Laws/Exec.lean ====
section
/-! SUPPORT. What an operation and a step can do, said once. -/

namespace Sys2Proof.Machine

/-! ### Edges -/

@[simp] theorem exec_edgeFall (ts : Nat) (s : State) : exec (.edgeFall ts) s = .next (edge .falling ts s) := rfl

@[simp] theorem exec_edgeRise (ts : Nat) (s : State) : exec (.edgeRise ts) s = .next (edge .rising ts s) := rfl

theorem edge_unarmed (l : Level) (ts : Nat) (s : State) (h : s.armed = false) : edge l ts s = s := by
  simp [edge, h]

theorem edge_first (l : Level) (ts : Nat) (s : State) (h : s.armed = true) (hv : s.lastEdgeValid = false) :
    edge l ts s = recordFirstEdge ts s := by simp [edge, h, hv]

theorem edge_gap (l : Level) (ts : Nat) (s : State) (h : s.startsFrameAt ts) :
    edge l ts s = startCondition { s with lastEdgeTimestamp := ts } := by
  obtain ⟨ha, hv, hg⟩ := h
  have : isGap s.cfg (interval s.cfg.widths ts s.lastEdgeTimestamp) = true := (isGap_iff _ _).2 hg
  simp only [edge, ha, hv, this, Bool.true_eq_false, if_false, if_true]

theorem edge_falling_inFrame (ts : Nat) (s : State) (h : s.inFrameAt ts) :
    edge .falling ts s = { s with lastEdgeTimestamp := ts } := by
  obtain ⟨ha, hv, hg⟩ := h
  have : isGap s.cfg (interval s.cfg.widths ts s.lastEdgeTimestamp) = false := (isGap_false_iff _ _).2 hg
  simp only [edge, ha, hv, this, Bool.true_eq_false, Bool.false_eq_true, if_false]

theorem edge_rising_inFrame (ts : Nat) (s : State) (h : s.inFrameAt ts) :
    edge .rising ts s = samplePulse (interval s.cfg.widths ts s.lastEdgeTimestamp) ts { s with lastEdgeTimestamp := ts } := by
  obtain ⟨ha, hv, hg⟩ := h
  have : isGap s.cfg (interval s.cfg.widths ts s.lastEdgeTimestamp) = false := (isGap_false_iff _ _).2 hg
  simp only [edge, ha, hv, this, Bool.true_eq_false, Bool.false_eq_true, if_false]

/-- The order of the tests of an edge (R112): exactly one of these cases holds. -/
theorem edge_cases (ts : Nat) (s : State) :
    s.armed = false ∨ (s.armed = true ∧ s.lastEdgeValid = false) ∨ s.startsFrameAt ts ∨ s.inFrameAt ts := by
  unfold State.startsFrameAt State.inFrameAt
  cases s.armed <;> cases s.lastEdgeValid <;> simp
  omega

theorem not_gap_of_inFrame (ts : Nat) (s : State) (h : s.inFrameAt ts) : ¬ s.startsFrameAt ts := by
  rintro ⟨_, _, hg⟩
  have := h.2.2
  omega

/-- What a pulse can do (R116 to R123), by the phase. -/
theorem samplePulse_cases (w ts : Nat) (s : State) :
    ((s.phase = .idle ∨ s.phase = .frameComplete ∨ s.phase = .frameError) ∧ samplePulse w ts s = s) ∨
    (s.phase = .startDetected ∧ samplePulse w ts s = takeStartPulse w s) ∨
    (s.phase = .receiving ∧ samplePulse w ts s = takeDataPulse w s) ∨
    (s.phase = .parityCheck ∧ classify w s.thresholdMicros ≠ s.parityAccumulator ∧
      samplePulse w ts s = enterFrameError s) ∨
    (s.phase = .parityCheck ∧ classify w s.thresholdMicros = s.parityAccumulator ∧
      s.bitPosition = s.cfg.profile.dataBits ∧ samplePulse w ts s = completeFrame ts s) ∨
    (s.phase = .parityCheck ∧ classify w s.thresholdMicros = s.parityAccumulator ∧
      s.bitPosition ≠ s.cfg.profile.dataBits ∧ samplePulse w ts s = passFirstParity s) := by
  cases h : s.phase <;> simp [samplePulse, h, takeParityPulse]
  by_cases hp : classify w s.thresholdMicros = s.parityAccumulator
  · by_cases hd : s.bitPosition = s.cfg.profile.dataBits
    · simp [hp, hd, isFinalPosition_iff]
    · simp [hp, hd, isFinalPosition_iff]
  · simp [hp]

/-- What an edge can do, said once: everything the block's producer side can do (R128). -/
theorem edge_result (l : Level) (ts : Nat) (s : State) :
    (s.armed = false ∧ edge l ts s = s) ∨
    (s.armed = true ∧ s.lastEdgeValid = false ∧ edge l ts s = recordFirstEdge ts s) ∨
    (s.startsFrameAt ts ∧ edge l ts s = startCondition { s with lastEdgeTimestamp := ts }) ∨
    (s.inFrameAt ts ∧ l = .falling ∧ edge l ts s = { s with lastEdgeTimestamp := ts }) ∨
    (s.inFrameAt ts ∧ l = .rising ∧
      edge l ts s = samplePulse (interval s.cfg.widths ts s.lastEdgeTimestamp) ts { s with lastEdgeTimestamp := ts }) := by
  rcases edge_cases ts s with h | ⟨h, hv⟩ | h | h
  · exact .inl ⟨h, edge_unarmed l ts s h⟩
  · exact .inr (.inl ⟨h, hv, edge_first l ts s h hv⟩)
  · exact .inr (.inr (.inl ⟨h, edge_gap l ts s h⟩))
  · cases l
    · exact .inr (.inr (.inr (.inl ⟨h, rfl, edge_falling_inFrame ts s h⟩)))
    · exact .inr (.inr (.inr (.inr ⟨h, rfl, edge_rising_inFrame ts s h⟩)))

/-! ### Commands -/

@[simp] theorem exec_begin_true (s : State) : exec (.beginOp true) s = .next (respond 0 (startSession s)) := rfl

@[simp] theorem exec_begin_false (s : State) : exec (.beginOp false) s = .next (raise .beginFailed s) := rfl

@[simp] theorem exec_end (s : State) : exec .endOp s = .next (respond 0 { s with armed := false }) := rfl

@[simp] theorem exec_take (s : State) : exec .take s = .next (respond (takeData s.cfg.profile s.visible) s) := rfl

@[simp] theorem exec_isconn (now : Nat) (tmo : Nat) (s : State) :
    exec (.isconn now tmo) s = .next (respond (boolData (connected s now tmo)) s) := rfl

/-- The temperature that a `READ` would report of the visible entry (R152, R153). -/
abbrev State.visibleTemp (s : State) : Rat :=
  tempOf s.cfg.profile (s.visible.bits.toNat % 2 ^ s.cfg.profile.payloadWidth)

/-- What a `READ` can do (R185, R210): three outcomes, in this order of tests. -/
theorem exec_read_result (now : Nat) (tmo : Nat) (s : State) :
    (connected s now tmo = false ∧ exec (.read now tmo) s = .next (raise .notConnected s)) ∨
    (connected s now tmo = true ∧ (s.visible.valid = false ∨ plausible s s.visibleTemp now = false) ∧
      exec (.read now tmo) s = .next (raise .misreading s)) ∨
    (connected s now tmo = true ∧ s.visible.valid = true ∧ plausible s s.visibleTemp now = true ∧
      exec (.read now tmo) s = .next (respond (tempEncode s.cfg.tempFormat s.visibleTemp)
        (recordReport (payloadOf s.cfg.profile s.visible.bits) now s))) := by
  have hexec : exec (.read now tmo) s = execRead now tmo s := rfl
  rw [hexec]
  unfold execRead decodeChecked State.visibleTemp
  rw [decodeFrame_eq]
  cases hc : connected s now tmo
  · simp
  · cases hv : s.visible.valid
    · simp
    · cases hp : plausible s (tempOf s.cfg.profile (s.visible.bits.toNat % 2 ^ s.cfg.profile.payloadWidth)) now <;>
        simp [hp]

/-! ### Operations and steps -/

/-- Every operation answers a next state (R14). -/
theorem exec_next (i : Instr) (s : State) : ∃ t, exec i s = .next t := by
  cases i with
  | edgeFall ts => exact ⟨_, rfl⟩
  | edgeRise ts => exact ⟨_, rfl⟩
  | beginOp a => cases a <;> exact ⟨_, rfl⟩
  | endOp => exact ⟨_, rfl⟩
  | take => exact ⟨_, rfl⟩
  | isconn now tmo => exact ⟨_, rfl⟩
  | read now tmo =>
    rcases exec_read_result now tmo s with ⟨_, h⟩ | ⟨_, _, h⟩ | ⟨_, _, _, h⟩ <;> exact ⟨_, h⟩

/-- What one operation can do, said once. The name of each case is the operation's. -/
theorem exec_result (i : Instr) (s t : State) (h : exec i s = .next t) :
    (∃ ts, i = .edgeFall ts ∧ t = edge .falling ts s) ∨ (∃ ts, i = .edgeRise ts ∧ t = edge .rising ts s) ∨
    (i = .beginOp true ∧ t = respond 0 (startSession s)) ∨ (∃ st d, (i = .beginOp false ∨ i = .take ∨
      (∃ now tmo, i = .isconn now tmo) ∨ ∃ now tmo, i = .read now tmo) ∧
        t = { s with responses := s.responses ++ [packRsp st d] } ∧ (st ≠ .ok → d = 0)) ∨
    (i = .endOp ∧ t = respond 0 { s with armed := false }) ∨
    (∃ now tmo, i = .read now tmo ∧ t = respond (tempEncode s.cfg.tempFormat s.visibleTemp)
        (recordReport (payloadOf s.cfg.profile s.visible.bits) now s)) := by
  cases i with
  | edgeFall ts => exact .inl ⟨ts, rfl, by simpa using h.symm⟩
  | edgeRise ts => exact .inr (.inl ⟨ts, rfl, by simpa using h.symm⟩)
  | beginOp a =>
    cases a
    · exact .inr (.inr (.inr (.inl ⟨.beginFailed, 0, by simp, by simpa [raise] using h.symm, by simp⟩)))
    · exact .inr (.inr (.inl ⟨rfl, by simpa using h.symm⟩))
  | endOp => exact .inr (.inr (.inr (.inr (.inl ⟨rfl, by simpa using h.symm⟩))))
  | take => exact .inr (.inr (.inr (.inl ⟨.ok, _, by simp, by simpa [respond] using h.symm, by simp⟩)))
  | isconn now tmo => exact .inr (.inr (.inr (.inl ⟨.ok, _, by simp, by simpa [respond] using h.symm, by simp⟩)))
  | read now tmo =>
    rcases exec_read_result now tmo s with ⟨_, h'⟩ | ⟨_, _, h'⟩ | ⟨_, _, _, h'⟩ <;> rw [h'] at h
    · exact .inr (.inr (.inr (.inl ⟨.notConnected, 0, by simp, by simpa [raise] using h.symm, by simp⟩)))
    · exact .inr (.inr (.inr (.inl ⟨.misreading, 0, by simp, by simpa [raise] using h.symm, by simp⟩)))
    · exact .inr (.inr (.inr (.inr (.inr ⟨now, tmo, rfl, by simpa using h.symm⟩))))

/-- What one step can do, said once. -/
theorem step_result (s t : State) (h : step s = .next t) :
    (s.pending = [] ∧ t = s) ∨
    ∃ w rest, s.pending = w :: rest ∧
      ((∃ i, decode s.cfg.widths w = .instr i ∧ exec i { s with pending := rest } = .next t) ∨
        (∃ op, decode s.cfg.widths w = .reservedOp op ∧ t = raise .badOperation { s with pending := rest })) := by
  unfold step stepOnce fetch at h
  cases hp : s.pending with
  | nil => rw [hp] at h; exact .inl ⟨rfl, by simpa using h.symm⟩
  | cons w rest =>
    rw [hp] at h
    refine .inr ⟨w, rest, rfl, ?_⟩
    simp only [runWord] at h
    cases hd : decode s.cfg.widths w with
    | instr i => rw [hd] at h; exact .inl ⟨i, rfl, h⟩
    | reservedOp op => rw [hd] at h; exact .inr ⟨op, rfl, by simpa [execReserved] using h.symm⟩

theorem runOps_cons (i : Instr) (ops : List Instr) (s t : State) (h : exec i s = .next t) :
    runOps (i :: ops) s = runOps ops t := by simp [runOps, h]

theorem runOps_append (a b : List Instr) (s t : State) (h : runOps a s = .next t) :
    runOps (a ++ b) s = runOps b t := by
  induction a generalizing s with
  | nil => simp only [runOps, Host.Outcome.next.injEq] at h; simp [h]
  | cons i rest ih =>
    obtain ⟨u, hu⟩ := exec_next i s
    rw [List.cons_append, runOps_cons _ _ _ _ hu]
    rw [runOps_cons _ _ _ _ hu] at h
    exact ih u h

/-- A property that every operation keeps holds after every sequence of operations: the induction, once. -/
theorem runOps_induct (P : State → Prop) (ops : List Instr) (s t : State)
    (hstep : ∀ i ∈ ops, ∀ u v, P u → exec i u = .next v → P v) (hs : P s) (h : runOps ops s = .next t) : P t := by
  induction ops generalizing s with
  | nil => simp only [runOps, Host.Outcome.next.injEq] at h; exact h ▸ hs
  | cons i rest ih =>
    obtain ⟨u, hu⟩ := exec_next i s
    rw [runOps_cons _ _ _ _ hu] at h
    exact ih u (fun j hj => hstep j (List.mem_cons_of_mem _ hj)) (hstep i List.mem_cons_self s u hs hu) h

end Sys2Proof.Machine
end

