-- ==== Sys2Proof/Laws/PerInstr.lean ====
section
/-! SUPPORT. The family of statements made for each operation: encoding and decoding agree (30_encoding.md R79, R80,
R84), one lemma per constructor of `Instr`. -/

namespace Sys2Proof.Laws

open Sys2Proof

/-- Dividing by the weight of a field takes the fields below it away. -/
theorem field_div (hi lo m : Nat) (h : lo < m) : (hi * m + lo) / m = hi := by
  rw [Nat.mul_comm, Nat.mul_add_div (by omega), Nat.div_eq_of_lt h, Nat.add_zero]

/-- The remainder by the weight of a field is the fields below it. -/
theorem field_mod (hi lo m : Nat) (h : lo < m) : (hi * m + lo) % m = lo := by
  rw [Nat.mul_comm, Nat.mul_add_mod, Nat.mod_eq_of_lt h]

theorem evLevel_packEv (k : Widths) (l : BitVec 1) (t : Nat) (h : t < 2 ^ k.ts) :
    evLevel k (packEv k l t) = if l = 1 then .rising else .falling := by
  rw [evLevel, packEv, field_div _ _ _ h]
  revert l
  decide

theorem evTimestamp_packEv (k : Widths) (l : BitVec 1) (t : Nat) (h : t < 2 ^ k.ts) :
    evTimestamp k (packEv k l t) = t := field_mod _ _ _ h

/-- The two operand fields of a command word together are below the weight of `op`. -/
theorem operands_lt (k : Widths) (n m : Nat) (hn : n < 2 ^ k.ts) (hm : m < 2 ^ k.tmo) :
    n * 2 ^ k.tmo + m < 2 ^ (k.ts + k.tmo) := by
  have h : (n + 1) * 2 ^ k.tmo ≤ 2 ^ k.ts * 2 ^ k.tmo := Nat.mul_le_mul_right _ hn
  rw [Nat.pow_add]
  rw [Nat.add_mul] at h
  omega

theorem cmdOp_packCmd (k : Widths) (op : BitVec 3) (n m : Nat) (hn : n < 2 ^ k.ts) (hm : m < 2 ^ k.tmo) :
    cmdOp k (packCmd k op n m) = op := by
  rw [cmdOp, packCmd, Nat.add_assoc, field_div _ _ _ (operands_lt k n m hn hm)]
  simp

theorem cmdNow_packCmd (k : Widths) (op : BitVec 3) (n m : Nat) (hn : n < 2 ^ k.ts) (hm : m < 2 ^ k.tmo) :
    cmdNow k (packCmd k op n m) = n := by
  rw [cmdNow, packCmd, Nat.pow_add, ← Nat.mul_assoc, ← Nat.add_mul, field_div _ _ _ hm]
  exact field_mod _ _ _ hn

theorem cmdTimeout_packCmd (k : Widths) (op : BitVec 3) (n m : Nat) (hm : m < 2 ^ k.tmo) :
    cmdTimeout k (packCmd k op n m) = m := by
  rw [cmdTimeout, packCmd, Nat.pow_add, ← Nat.mul_assoc, ← Nat.add_mul]
  exact field_mod _ _ _ hm

/-- Encoding an operation and decoding the word gives the operation back. -/
def EncodeDecode.Statement (i : Instr) : Prop :=
  ∀ k : Widths, k.wf = true → i.wf k = true → decode k (encode k i) = .instr i

theorem EncodeDecode.edgeFall (t : Nat) : EncodeDecode.Statement (.edgeFall t) := by
  intro k _ h
  have h : t < 2 ^ k.ts := of_decide_eq_true h
  simp [encode, decode, decodeEv, evLevel_packEv k _ t h, evTimestamp_packEv k _ t h]

theorem EncodeDecode.edgeRise (t : Nat) : EncodeDecode.Statement (.edgeRise t) := by
  intro k _ h
  have h : t < 2 ^ k.ts := of_decide_eq_true h
  simp [encode, decode, decodeEv, evLevel_packEv k _ t h, evTimestamp_packEv k _ t h]

theorem EncodeDecode.beginOp (a : Bool) : EncodeDecode.Statement (.beginOp a) := by
  intro k hk _
  have ht : 0 < k.tmo := by simp only [Widths.wf, Bool.and_eq_true, decide_eq_true_eq] at hk; exact hk.2
  have ha : a.toNat < 2 ^ k.tmo := Nat.lt_of_lt_of_le (by cases a <;> decide) (Nat.pow_le_pow_right (n := 2) (by decide) ht)
  simp only [encode, decode, decodeCmd, cmdOp_packCmd k 0 0 a.toNat (Nat.two_pow_pos _) ha]
  cases a <;> simp [cmdAttachOk, packCmd]

theorem EncodeDecode.endOp : EncodeDecode.Statement .endOp := by
  intro k _ _
  simp only [encode, decode, decodeCmd, cmdOp_packCmd k 1 0 0 (Nat.two_pow_pos _) (Nat.two_pow_pos _)]
  rfl

theorem EncodeDecode.take : EncodeDecode.Statement .take := by
  intro k _ _
  simp only [encode, decode, decodeCmd, cmdOp_packCmd k 2 0 0 (Nat.two_pow_pos _) (Nat.two_pow_pos _)]
  rfl

theorem EncodeDecode.isconn (n m : Nat) : EncodeDecode.Statement (.isconn n m) := by
  intro k _ h
  simp only [Instr.wf, Widths.fitsTime, Widths.fitsTimeout, Bool.and_eq_true, decide_eq_true_eq] at h
  simp only [encode, decode, decodeCmd, cmdOp_packCmd k 3 n m h.1 h.2, cmdNow_packCmd k 3 n m h.1 h.2,
    cmdTimeout_packCmd k 3 n m h.2]
  rfl

theorem EncodeDecode.read (n m : Nat) : EncodeDecode.Statement (.read n m) := by
  intro k _ h
  simp only [Instr.wf, Widths.fitsTime, Widths.fitsTimeout, Bool.and_eq_true, decide_eq_true_eq] at h
  simp only [encode, decode, decodeCmd, cmdOp_packCmd k 4 n m h.1 h.2, cmdNow_packCmd k 4 n m h.1 h.2,
    cmdTimeout_packCmd k 4 n m h.2]
  rfl

end Sys2Proof.Laws
end

