-- ==== Sys2Proof/Tests/Slice0.lean ====
section
/-! SUPPORT. Tests on fixed values, and the witnesses of the statements. Expected values are those of
95_test_vectors.md, whose vectors are named (A1, W2, P1, …), or are worked out from the rule named. -/

namespace Sys2Proof.Tests

open Sys2Proof Sys2Proof.Machine

/-- A configuration of the vectors: `TS_W` = `TMO_W` = 32, `GAP_US` = 1000, `THRESH_RESET` = 0, `RATE_C_PER_S` = 10 and the
recommended `TempEncode`. -/
def cfgOf (p : Profile) : Config := Config.standard p ⟨10, 0⟩ .binary32

/-- The state after reset with profile `p`. -/
def fresh (p : Profile) : State := State.resetWith (cfgOf p)

/-- `FULL11`, armed, in a frame with threshold 60 and the last edge at `last`. -/
def inFrame (phase : Phase) (last : Nat) (position : Nat) (acc : FrameBits) (parity : Bool)
    (bound : position ≤ (fresh .full11).cfg.profile.dataBits := by decide) : State :=
  { fresh .full11 with
    armed := true, lastEdgeValid := true, lastEdgeTimestamp := last, thresholdMicros := 60
    phase := phase, bitPosition := position, positionBound := bound, accumulator := acc, parityAccumulator := parity }

/-- P1 before its last event, `RISE 6965`: the final parity pulse of payload 1024. -/
def lastPulse : State := inFrame .parityCheck 6875 13 0x400 false

/-- P1 after step 34. -/
def heard : State :=
  { inFrame .frameComplete 6965 13 0x400 false with
    buf := ⟨⟨0, false⟩, ⟨0x400, true⟩⟩, visibleIdx := 1, hbValid := true, lastHeartbeatTimestamp := 6965 }

/-- P1 after step 38. -/
def reported : State :=
  { heard with
    repValid := true, lastReportedPayload := 1024, lastReportedTimestamp := 8000, responses := [0x042483206] }

/-- P4 after step 4: payload 1100 visible, payload 1024 reported at 5000. -/
def jumped : State :=
  { inFrame .frameComplete 103965 13 0x44C false with
    buf := ⟨⟨0x44C, true⟩, ⟨0x400, true⟩⟩, hbValid := true, lastHeartbeatTimestamp := 103965
    repValid := true, lastReportedPayload := 1024, lastReportedTimestamp := 5000 }

/-- The next state of an operation, if it gives one. -/
def after (i : Instr) (s : State) : Option State :=
  match exec i s with
  | .next t => some t
  | .fault _ => none
  | .refused _ => none

theorem exec_of_after {i : Instr} {s t : State} (h : after i s = some t) : exec i s = .next t := by
  unfold after at h
  split at h
  · cases h; assumption
  · cases h
  · cases h

/-! ### Well-formedness: each check refuses an ill-formed line (R89, R90, R91) -/

theorem test_wf_fall_refuses_33_bits : ScriptLine.wf (cfgOf .full11) (.fall (2 ^ 32)) = false := by decide
theorem test_wf_rise_refuses_33_bits : ScriptLine.wf (cfgOf .full11) (.rise (2 ^ 32)) = false := by decide
theorem test_wf_begin_refuses_2 : ScriptLine.wf (cfgOf .full11) (.beginLine 2) = false := by decide
theorem test_wf_isconn_refuses_wide_operands : ScriptLine.wf (cfgOf .full11) (.isconnLine (2 ^ 32) 0) = false ∧
    ScriptLine.wf (cfgOf .full11) (.isconnLine 0 (2 ^ 32)) = false := by decide
theorem test_wf_read_refuses_wide_operands : ScriptLine.wf (cfgOf .full11) (.readLine (2 ^ 32) 0) = false ∧
    ScriptLine.wf (cfgOf .full11) (.readLine 0 (2 ^ 32)) = false := by decide
theorem test_wf_pulse_refuses_late_end : ScriptLine.wf (cfgOf .full11) (.pulse 4294967295 1) = false := by decide
theorem test_wf_frameBits_refuses_bad_lists :
    ScriptLine.wf (cfgOf .full11) (.frameBits 0 (List.replicate 16 0)) = false ∧
    ScriptLine.wf (cfgOf .full11) (.frameBits 0 (2 :: List.replicate 14 0)) = false ∧
    ScriptLine.wf (cfgOf .full11) (.frameBits 4294967295 (List.replicate 15 0)) = false ∧
    ScriptLine.wf (cfgOf .full11) (.frameBits 0 (List.replicate 15 0)) = true := by decide
theorem test_wf_frame_refuses_bad_operands : ScriptLine.wf (cfgOf .full11) (.frame 0 2048 0) = false ∧
    ScriptLine.wf (cfgOf .full11) (.frame 0 0 4) = false ∧ ScriptLine.wf (cfgOf .full14) (.frame 0 0 1) = false ∧
    ScriptLine.wf (cfgOf .full11) (.frame 4294967295 0 0) = false ∧ ScriptLine.wf (cfgOf .full11) (.frame 5000 2047 3) = true := by decide
theorem test_wf_refuses_wide_operands : Instr.wf Widths.standard (.edgeFall (2 ^ 32)) = false ∧
    Instr.wf Widths.standard (.edgeRise (2 ^ 32)) = false ∧ Instr.wf Widths.standard (.isconn (2 ^ 32) 0) = false ∧
    Instr.wf Widths.standard (.read 0 (2 ^ 32)) = false := by decide
theorem test_wf_refuses_illegal_configurations : Widths.wf ⟨0, 32⟩ = false ∧ Widths.wf ⟨32, 0⟩ = false ∧
    Config.wf { cfgOf .full11 with threshReset := 2 ^ 32 } = false ∧ (cfgOf .full11).wf = true := by decide
theorem test_wf_refuses_words_too_long : PortWord.wf Widths.standard (.ev (2 ^ 33)) = false ∧
    PortWord.wf Widths.standard (.cmd (2 ^ 67)) = false ∧ PortWord.wf Widths.standard (.ev (2 ^ 33 - 1)) = true := by decide
theorem test_wf_accepts_every_operation : Instr.wf Widths.standard (.edgeFall 0xFFFFFFFF) = true ∧ Instr.wf Widths.standard (.edgeRise 0) = true ∧
    Instr.wf Widths.standard (.beginOp false) = true ∧ Instr.wf Widths.standard .endOp = true ∧ Instr.wf Widths.standard .take = true ∧
    Instr.wf Widths.standard (.isconn 0xFFFFFFFF 0xFFFFFFFF) = true ∧ Instr.wf Widths.standard (.read 0 0) = true := by decide

/-! ### Decoding: one word for every operation, written out from R79 and R80 (words of P1, P4) -/

theorem test_decode_edgeFall : decode Widths.standard (.ev 0x000001388) = .instr (.edgeFall 5000) := by decide
theorem test_decode_edgeRise : decode Widths.standard (.ev 0x1000013C4) = .instr (.edgeRise 5060) := by decide
theorem test_decode_begin : decode Widths.standard (.cmd 0x00000000000000001) = .instr (.beginOp true) ∧
    decode Widths.standard (.cmd 0x0FFFFFFFFFFFFFFFE) = .instr (.beginOp false) := by decide
theorem test_decode_end : decode Widths.standard (.cmd 0x1FFFFFFFFFFFFFFFF) = .instr .endOp := by decide
theorem test_decode_take : decode Widths.standard (.cmd 0x20000000000000000) = .instr .take := by decide
theorem test_decode_isconn : decode Widths.standard (.cmd 0x30001A1D500000064) = .instr (.isconn 106965 100) := by decide
theorem test_decode_read : decode Widths.standard (.cmd 0x400001F4000000064) = .instr (.read 8000 100) := by decide
theorem test_decode_refuses_reserved_ops : decode Widths.standard (.cmd 0x50000000000000000) = .reservedOp 5 ∧
    decode Widths.standard (.cmd 0x60000000000000000) = .reservedOp 6 ∧ decode Widths.standard (.cmd 0x70000000000000000) = .reservedOp 7 := by decide
theorem test_table_word_must_fit_its_row : decodeTableWord 40 (2 ^ 33) = none ∧ decodeTableWord 72 (2 ^ 67) = none ∧
    decodeTableWord 8 0 = none ∧ decodeTableWord 72 0x50000000000000000 = none := by decide
/-- R79 and R80 for an instance with `TS_W` = 64 (R241). -/
theorem test_decode_wide_clock : decode ⟨64, 32⟩ (.ev 0x1000000000000000A) = .instr (.edgeRise 10) ∧
    decode ⟨64, 32⟩ (.cmd 0x4000000000000000500000007) = .instr (.read 5 7) := by decide
theorem test_encode_words : encode Widths.standard (.edgeRise 5060) = .ev 0x1000013C4 ∧
    encode Widths.standard (.read 8000 100) = .cmd 0x400001F4000000064 := by decide

/-! ### The script language (R89 to R91, A10) -/

theorem test_frame_bits_A10 : scriptFrameBits .full11 1024 3 = [1, 1, 1, 0, 0, 0, 0, 0, 0, 1, 0, 0, 0, 0, 0] ∧
    scriptFrameBits .full14 8200 0 = [1, 0, 0, 0, 0, 0, 0, 0, 0, 1, 0, 1, 0, 0, 0, 1] := by decide
theorem test_assemble_pulse : assemble .full11 [.beginLine 1, .pulse 5000 60] =
    [.beginOp true, .edgeFall 5000, .edgeRise 5060] := by decide
theorem test_parse_line : parseLine "FRAME 2000 1024 3 # A9".toList = some [.frame 2000 1024 3] ∧
    parseLine "# nothing".toList = some [] ∧ parseLine "JUMP 1".toList = none := by decide

/-! ### One step of each operation -/

/-- P1, `FALL 5000`: interval 4900. -/
theorem test_edgeFall_starts_a_frame :
    (after (.edgeFall 5000) { inFrame .idle 100 0 0 false with thresholdMicros := 0 }).map
      (fun t => (t.phase, t.lastEdgeTimestamp)) = some (.startDetected, 5000) := by decide
/-- A1: an interval of exactly 1000 is no gap; the rule is the same for a falling edge (R114, R115). -/
theorem test_edgeFall_at_1000_is_no_gap :
    (after (.edgeFall 2000) (inFrame .receiving 1000 3 1 true)).map (fun t => (t.phase, t.accumulator)) =
      some (.receiving, 1) := by decide
/-- A5: width 60 = `T` is a 0; width 59 is a 1. -/
theorem test_edgeRise_width_at_threshold :
    (after (.edgeRise 2185) (inFrame .receiving 2125 0 0 false)).map (fun t => (t.bitPosition, t.accumulator)) =
      some (1, 0) ∧
    (after (.edgeRise 2184) (inFrame .receiving 2125 0 0 false)).map (fun t => (t.accumulator, t.parityAccumulator)) =
      some (1, true) := by decide
/-- P1, `RISE 6965`; A11 is the same with the parity bit inverted. -/
theorem test_edgeRise_ends_a_frame :
    (after (.edgeRise 6965) lastPulse) = some heard ∧
    (after (.edgeRise 6905) lastPulse).map (fun t => (t.phase, t.visible, t.hbValid)) =
      some (.frameError, ⟨0x400, false⟩, false) := by decide
/-- X1. -/
theorem test_begin_fails : (after (.beginOp false) (fresh .full11)).map (fun t => (t.responses, t.armed)) =
    some ([0x300000000], false) := by decide
/-- P4, step 14. -/
theorem test_begin_forgets_the_last_edge : (after (.beginOp true) { jumped with armed := false }).map
    (fun t => (t.armed, t.phase, t.lastEdgeValid, t.accumulator)) = some (true, .idle, false, 0x44C) := by decide
/-- X2. -/
theorem test_end_disarms : (after .endOp heard).map (fun t => (t.responses, t.armed, t.phase)) =
    some ([0], false, .frameComplete) := by decide
/-- P1, step 36. -/
theorem test_take_valid : (after .take heard).map (·.responses) = some [0x080000400] := by decide
/-- P2, step 6. -/
theorem test_take_invalid : (after .take { heard with buf := ⟨⟨0x2000, true⟩, ⟨0x120, false⟩⟩ }).map (·.responses) =
    some [0x000000120] := by decide
/-- P1, step 39 and step 40. -/
theorem test_isconn_inclusive : (after (.isconn 106965 100) heard).map (·.responses) = some [1] ∧
    (after (.isconn 106966 100) heard).map (·.responses) = some [0] := by decide
/-- M2, its last two lines: the product of the timeout is not truncated. -/
theorem test_isconn_wide_timeout :
    (after (.isconn 99 4294967) { heard with lastHeartbeatTimestamp := 100 }).map (·.responses) = some [0] ∧
    (after (.isconn 99 4294968) { heard with lastHeartbeatTimestamp := 100 }).map (·.responses) = some [1] := by decide
/-- P1, step 38. -/
theorem test_read_reports : after (.read 8000 100) heard = some reported := by decide +kernel
/-- P4, steps 6 and 7. -/
theorem test_read_plausibility_boundary :
    (after (.read 747550 1000) jumped).map (fun t => (t.responses, t.lastReportedPayload)) =
      some ([0x200000000], 1024) ∧
    (after (.read 747551 1000) jumped).map (fun t => (t.responses, t.lastReportedPayload)) =
      some ([0x04265E5BD], 1100) := by decide +kernel
/-- X3. -/
theorem test_reserved_command : step { heard with pending := [.cmd 0x70000000000000000] } =
    .next { heard with responses := [0x400000000] } := by rfl

/-! ### The internal functions -/

/-- W1, third row and fourth row. -/
theorem test_threshold_W1 : (nextThreshold Widths.standard 1000)^[5] 0 = 1332 ∧ (nextThreshold Widths.standard 1000)^[6] 0 = 1333 ∧
    nextThreshold Widths.standard 64 77 = 83 ∧ nextThreshold Widths.standard 61 83 = 81 := by decide
/-- W2. -/
theorem test_classify_W2 : classify 59 60 = true ∧ classify 60 60 = false ∧ classify 0 60 = true ∧
    classify 0 0 = false := by decide
/-- T1: payloads of `NARROW14`. -/
theorem test_tempEncode_T1 : binary32 (tempOf .narrow14 0) = 0xC1200000 ∧ binary32 (tempOf .narrow14 1) = 0xC11FEE80 ∧
    binary32 (tempOf .narrow14 2341) = 0x3B200280 ∧ binary32 (tempOf .narrow14 16383) = 0x42700000 := by decide +kernel
/-- S2: the payloads sent for 25, 36.6, −40 and 60 °C. -/
theorem test_payloadFor_S2 : payloadFor .full11 25 = 768 ∧ payloadFor .narrow14 (183 / 5) = 10906 ∧
    payloadFor .full14 (-40) = 819 ∧ payloadFor .narrow11 60 = 2047 := by decide +kernel
/-- A3: across a wrap of the timestamps. -/
theorem test_interval_A3 : interval Widths.standard 0x2C 0xFFFFFFF0 = 60 ∧ interval Widths.standard 4990 5000 = 4294967286 ∧
    interval ⟨64, 32⟩ 4990 5000 = 18446744073709551606 := by decide
/-- The gap and the first threshold of an instance are those of its configuration (R5, R114, R232). -/
theorem test_parameters : isGap { cfgOf .full11 with gapUs := 500 } 501 = true ∧ isGap (cfgOf .full11) 501 = false ∧
    (State.resetWith { cfgOf .full11 with threshReset := 80 }).thresholdMicros = 80 := by decide
/-- A word placed by the host is what the next step runs. -/
theorem test_withFetchWord : step (State.withFetchWord heard 72 0x20000000000000000) =
    .next { heard with responses := [0x080000400] } := by rfl

/-! ### Witnesses: for each statement with hypotheses, values that meet them together -/

/-- With the widths of R5, with a 64-bit clock, and at the ends of each field. -/
theorem witness_DecodeInvertsEncode : Widths.standard.wf = true ∧ Widths.wf ⟨64, 1⟩ = true ∧
    (∀ i ∈ [Instr.edgeFall 0, .edgeRise 0xFFFFFFFF, .beginOp true, .endOp, .take, .isconn 0 0xFFFFFFFF,
      .read 0xFFFFFFFF 0], i.wf Widths.standard = true) ∧ Instr.wf ⟨64, 1⟩ (.read 0xFFFFFFFFFFFFFFFF 1) = true := by
  decide

theorem witness_PlacedWordIsTheNextOperation : heard.cfg.widths = Widths.standard ∧
    Instr.wf Widths.standard (.edgeRise 0xFFFFFFFF) = true ∧ Instr.wf Widths.standard (.read 0 0) = true := by
  decide

theorem witness_EveryOperationCompletesWithOneResult :
    Instr.port (.edgeFall 0) = .producer ∧ Instr.port (.read 0 0) = .consumer := by decide

theorem witness_EveryEdgeWordIsALegalEvent : (0x0FFFFFFFF < 2 ^ 33 ∧ 0x0FFFFFFFF < 2 ^ 32) ∧
    (0x100000000 < 2 ^ 33 ∧ 2 ^ 32 ≤ 0x100000000) ∧ (0x1FFFFFFFF < 2 ^ 33 ∧ 2 ^ 32 ≤ 0x1FFFFFFFF) := by decide

theorem witness_CommandWordFieldsAreReadInPlace : 0x0FFFFFFFFFFFFFFFF / 2 ^ 64 = 0 ∧
    0x10000000000000000 / 2 ^ 64 = 1 ∧ 0x2FFFFFFFFFFFFFFFF / 2 ^ 64 = 2 ∧ 0x30000000000000000 / 2 ^ 64 = 3 ∧
    0x4FFFFFFFFFFFFFFFF / 2 ^ 64 = 4 ∧ 0x4FFFFFFFFFFFFFFFF < 2 ^ 67 := by decide

theorem witness_IgnoredCommandBitsChangeNothing :
    let opAt := heard.cfg.widths.ts + heard.cfg.widths.tmo
    let w : Nat := 0x0FFFFFFFFFFFFFFFF
    let w' : Nat := 0x00000000000000001
    w < 2 ^ (3 + opAt) ∧ w' < 2 ^ (3 + opAt) ∧ w / 2 ^ opAt = w' / 2 ^ opAt ∧ w / 2 ^ opAt ≠ 3 ∧ w / 2 ^ opAt ≠ 4 ∧
      (w / 2 ^ opAt = 0 → w % 2 = w' % 2) ∧ w ≠ w' := by decide

theorem witness_ReservedCommandAnswersBadOperation :
    heard.cfg.widths = Widths.standard ∧
    ({ heard with pending := [.cmd 0x50000000000000000] } : State).pending = .cmd 0x50000000000000000 :: [] ∧
    5 ≤ 0x50000000000000000 / 2 ^ 64 ∧ 5 ≤ 0x7FFFFFFFFFFFFFFFF / 2 ^ 64 ∧ 0x7FFFFFFFFFFFFFFFF < 2 ^ 67 := by decide

theorem witness_FrameBitListCarriesDataWithEvenParity :
    2047 < 2 ^ Profile.full11.payloadWidth ∧ 3 < 2 ^ (Profile.full11.dataBits - Profile.full11.payloadWidth) ∧
    16383 < 2 ^ Profile.full14.payloadWidth ∧ 0 < 2 ^ (Profile.full14.dataBits - Profile.full14.payloadWidth) := by decide

theorem witness_StepRunsTheDecodedOperation :
    ({ heard with pending := [.ev 0x1000013C4, .ev 0] } : State).pending = .ev 0x1000013C4 :: [.ev 0] ∧
    decode Widths.standard (.ev 0x1000013C4) = .instr (.edgeRise 5060) ∧ Instr.wf Widths.standard (.edgeRise 5060) = true := by decide

theorem witness_StepWithoutOperationChangesNothing : heard.pending = [] := by decide

theorem witness_BeforeFirstBeginNothingIsHeard :
    (∀ a, Instr.beginOp a ∉ [.edgeFall 0, .edgeRise 5000, .endOp]) ∧
    runOps [.edgeFall 0, .edgeRise 5000, .endOp] (fresh .full11) =
      .next { fresh .full11 with responses := [0] } := ⟨by decide, rfl⟩

/-- P1 in the middle of the frame: a state with the invariants that is about to take a data bit. -/
def middle : State := { inFrame .receiving 5375 2 0 false with pending := [.ev 0x10000151D] }

theorem middle_inv : middle.Inv := by constructor <;> decide
theorem middle_groupParity : middle.GroupParity := by constructor <;> decide

theorem witness_EveryStepKeepsTheRegisterInvariant : middle.Inv ∧ middle.cfg.gapUs = 1000 ∧ middle.cfg.threshReset = 0 ∧
    ∃ t, step middle = .next t ∧ t.accumulator = 1 :=
  ⟨middle_inv, rfl, rfl, _, rfl, rfl⟩

theorem witness_ResetSatisfiesTheInvariants : (cfgOf .full11).wf = true ∧ Config.atReset.wf = true := ⟨by decide, by decide⟩

theorem witness_EveryStepKeepsTheGroupParity :
    middle.Inv ∧ middle.GroupParity ∧ ∃ t, step middle = .next t ∧ t.parityAccumulator = true :=
  ⟨middle_inv, middle_groupParity, _, rfl, rfl⟩

theorem witness_NoStepChangesTheConfiguration : ∃ t, step middle = .next t ∧ t ≠ middle := ⟨_, rfl, by decide⟩

theorem witness_EveryResponseIsWellCoded : (∀ r ∈ reported.responses, rspWellCoded r) ∧ reported.responses ≠ [] ∧
    ∃ t, step { reported with pending := [.cmd 0x50000000000000000] } = .next t :=
  ⟨fun r hr => by obtain rfl := List.mem_singleton.1 hr; exact ⟨by decide, by decide⟩, by simp [reported], _, rfl⟩

theorem witness_UnarmedEdgeChangesNothing : (fresh .full11).armed = false := by decide

theorem witness_ResetRegisterValues : ∃ c : Config, fresh .full11 = State.resetWith c := ⟨_, rfl⟩

theorem witness_FirstEdgeIsRecordedAndDiscarded :
    let s : State := { fresh .full11 with armed := true }
    s.armed = true ∧ s.lastEdgeValid = false := by decide

/-- The least gap, a falling and a wrapped one (A3). -/
theorem witness_StartConditionFromEveryPhase :
    let s := inFrame .receiving 1000 3 1 true
    let s' := inFrame .idle 0xFFFFF000 0 0 false
    (s.armed = true ∧ s.lastEdgeValid = true ∧ 1000 < interval s.cfg.widths 2001 s.lastEdgeTimestamp) ∧
    (s'.armed = true ∧ s'.lastEdgeValid = true ∧ 1000 < interval s'.cfg.widths 0xFFFFFFF0 s'.lastEdgeTimestamp) := by decide

theorem witness_FallingEdgeWithoutGapOnlyMovesTheTimestamp :
    let s := inFrame .receiving 1000 3 1 true
    s.armed = true ∧ s.lastEdgeValid = true ∧ interval s.cfg.widths 2000 s.lastEdgeTimestamp ≤ 1000 := by decide

theorem witness_PulseOutsideAFrameIsIgnored :
    (let s := inFrame .idle 0 0 0 false
     s.armed = true ∧ s.lastEdgeValid = true ∧ interval s.cfg.widths 1000 s.lastEdgeTimestamp ≤ 1000 ∧ s.phase = .idle) ∧
    heard.phase = .frameComplete ∧ interval heard.cfg.widths 6965 heard.lastEdgeTimestamp ≤ 1000 ∧
    (inFrame .frameError 0 9 0 false).phase = .frameError := by decide

theorem inFrameAt_of {s : State} {ts : Nat} (h : s.armed = true ∧ s.lastEdgeValid = true ∧
    interval s.cfg.widths ts s.lastEdgeTimestamp ≤ s.cfg.gapUs) : s.inFrameAt ts := h

/-- Start pulses of the greatest and of the least width. -/
theorem witness_StartPulseCalibratesTheThreshold :
    let s := inFrame .startDetected 5000 0 0 false
    s.inFrameAt 6000 ∧ s.inFrameAt 5000 ∧ s.phase = .startDetected :=
  ⟨inFrameAt_of (by decide), inFrameAt_of (by decide), by decide⟩

/-- The first data bit, the one before each parity position, and a state with the invariants. -/
theorem witness_DataPulseShiftsOneBit :
    (∀ (n : Nat) (h : n ≤ 12), let s := inFrame .receiving 5125 n 0 false (Nat.le_succ_of_le h)
      s.inFrameAt 5215 ∧ s.phase = .receiving ∧ s.bitPosition + 1 ≤ s.cfg.profile.dataBits) ∧ middle.inFrameAt 5405 ∧ middle.phase = .receiving ∧ middle.Inv :=
  ⟨fun n h => ⟨inFrameAt_of ⟨rfl, rfl, show interval Widths.standard 5215 5125 ≤ 1000 by decide⟩, rfl, Nat.succ_le_succ h⟩,
    inFrameAt_of (by decide), rfl, middle_inv⟩

/-- P1, `RISE 6280`. -/
theorem witness_FirstParityMatchOpensTheSecondGroup :
    let s := inFrame .parityCheck 6250 9 0x40 true
    s.inFrameAt 6280 ∧ s.phase = .parityCheck ∧ s.bitPosition = 9 ∧
      decide (interval s.cfg.widths 6280 s.lastEdgeTimestamp < s.thresholdMicros) = s.parityAccumulator :=
  ⟨inFrameAt_of (by decide), by decide⟩

/-- P1, `RISE 6965`. -/
theorem witness_FinalParityMatchPublishesTheFrame :
    lastPulse.inFrameAt 6965 ∧ lastPulse.phase = .parityCheck ∧
      lastPulse.bitPosition = lastPulse.cfg.profile.dataBits ∧
      decide (interval lastPulse.cfg.widths 6965 lastPulse.lastEdgeTimestamp < lastPulse.thresholdMicros) = lastPulse.parityAccumulator :=
  ⟨inFrameAt_of (by decide), by decide⟩

/-- A11, and a mismatch at the first parity position. -/
theorem witness_ParityMismatchPublishesAnInvalidFrame :
    (lastPulse.inFrameAt 6905 ∧ lastPulse.phase = .parityCheck ∧
      decide (interval lastPulse.cfg.widths 6905 lastPulse.lastEdgeTimestamp < lastPulse.thresholdMicros) ≠ lastPulse.parityAccumulator) ∧
    let s := inFrame .parityCheck 6250 9 0x40 true
    s.inFrameAt 6310 ∧ s.phase = .parityCheck ∧
      decide (interval s.cfg.widths 6310 s.lastEdgeTimestamp < s.thresholdMicros) ≠ s.parityAccumulator :=
  ⟨⟨inFrameAt_of (by decide), by decide⟩, inFrameAt_of (by decide), by decide⟩

theorem witness_FallingEdgeFrame : ∃ t, exec (.edgeFall 8000) heard = .next t ∧ t.phase = .startDetected := ⟨_, rfl, rfl⟩

/-- In `PARITY_CHECK`, outside it, and outside `START_DETECTED`. -/
theorem witness_RisingEdgeFrame : (∃ t, exec (.edgeRise 6965) lastPulse = .next t ∧ t.buf ≠ lastPulse.buf) ∧
    (∃ t, exec (.edgeRise 5405) middle = .next t) ∧ middle.phase ≠ .parityCheck ∧ middle.phase ≠ .startDetected :=
  ⟨⟨_, rfl, by decide⟩, ⟨_, rfl⟩, by decide⟩

theorem witness_PublishHappensOnlyInParityCheck :
    ∃ t, exec (.edgeRise 6965) lastPulse = .next t ∧ (t.buf ≠ lastPulse.buf ∨ t.visibleIdx ≠ lastPulse.visibleIdx) :=
  ⟨_, rfl, by decide⟩

theorem witness_AtMostOnePublishPerStartCondition :
    noStartCondition [.edgeRise 6965, .take] lastPulse ∧ publishCount [.edgeRise 6965, .take] lastPulse = 1 := by
  refine ⟨⟨?_, fun t ht => ⟨?_, fun _ _ => trivial⟩⟩, by decide⟩
  · rintro ⟨ts, h | h, hs⟩
    · cases h
    · cases h
      exact absurd hs.2.2 (by decide)
  · rintro ⟨ts, h | h, -⟩ <;> cases h

theorem witness_HeartbeatMovesOnlyWithACompleteFrame : ∃ t, exec (.edgeRise 6965) lastPulse = .next t ∧
    (t.hbValid ≠ lastPulse.hbValid ∨ t.lastHeartbeatTimestamp ≠ lastPulse.lastHeartbeatTimestamp) :=
  ⟨_, rfl, by decide⟩

theorem witness_OnlyAStartPulseMovesTheThreshold :
    ∃ t, exec (.edgeRise 5060) (inFrame .startDetected 5000 0 0 false) = .next t ∧ t.thresholdMicros ≠ 60 :=
  ⟨_, rfl, by decide⟩

theorem witness_ThresholdSettlesForConstantStartPulses : 11 ≤ Widths.standard.ts ∧ 11 ≤ Widths.ts ⟨11, 1⟩ ∧ 1000 ≤ 1000 ∧
    6 ≤ 6 := by decide

theorem witness_PhaseMovesOnlyAlongTheTransitionTable :
    (∃ t, exec (.edgeRise 6965) lastPulse = .next t ∧ t.phase ≠ lastPulse.phase) ∧
    (∃ t, exec (.beginOp true) heard = .next t ∧ t.phase ≠ heard.phase) ∧
    ∃ t, exec (.edgeFall 8000) heard = .next t ∧ t.phase ≠ heard.phase :=
  ⟨⟨_, rfl, by decide⟩, ⟨_, rfl, by decide⟩, _, rfl, by decide⟩

/-- The pulses of a script frame (R90): 125 µs apart, 30 µs for a 1 and 90 µs for a 0. -/
def scriptPulse (b : Bool) : Nat × Nat := if b then (35, 30) else (35, 90)

theorem scriptPulses_spell (bits : List Bool) : PulsesSpell heard.cfg 75 bits (bits.map scriptPulse) := by
  induction bits with
  | nil => exact .nil
  | cons b rest ih => exact .cons (by unfold inFrameInterval; cases b <;> decide) ih

theorem witness_FrameSentIsFrameReceived :
    let s := heard
    1024 < 2 ^ s.cfg.profile.payloadWidth ∧ 0 < 2 ^ (s.cfg.profile.dataBits - s.cfg.profile.payloadWidth) ∧
    s.startsFrameAt 9000 ∧ inFrameInterval s.cfg 60 ∧
    ∃ pulses, PulsesSpell s.cfg ((60 + s.thresholdMicros / 4) % 2 ^ s.cfg.widths.ts)
      (frameBitList s.cfg.profile (frameData s.cfg.profile 1024 0)) pulses :=
  ⟨by decide, by decide, ⟨by decide, by decide, by decide⟩, ⟨by decide, by decide⟩, _, scriptPulses_spell _⟩

/-- The first and the last bit of the frame. -/
theorem witness_AnySingleInvertedBitIsCaught :
    let s := heard
    1024 < 2 ^ s.cfg.profile.payloadWidth ∧ 3 < 2 ^ (s.cfg.profile.dataBits - s.cfg.profile.payloadWidth) ∧
    s.startsFrameAt 9000 ∧ inFrameInterval s.cfg 60 ∧ ∀ k ∈ [0, 9, 10, 14], k < s.cfg.profile.pulses ∧
    ∃ pulses, PulsesSpell s.cfg ((60 + s.thresholdMicros / 4) % 2 ^ s.cfg.widths.ts)
      (flipBit (frameBitList s.cfg.profile (frameData s.cfg.profile 1024 3)) k) pulses :=
  ⟨by decide, by decide, ⟨by decide, by decide, by decide⟩, ⟨by decide, by decide⟩,
    fun k hk => ⟨by revert k; decide, _, scriptPulses_spell _⟩⟩

theorem timesNeverDecrease_pair {a b : Nat} (h : a ≤ b) : TimesNeverDecrease [a, b] := by
  simp [TimesNeverDecrease, h]

/-- The longest interval, across a wrap of the counter; the longest step back. -/
theorem witness_ModularIntervalIsTrueElapsedTime : heard.cfg.gapUs = 1000 ∧
    (TimesNeverDecrease [5000, 4294972295] ∧ 4294972295 - 5000 < 2 ^ heard.cfg.widths.ts) ∧
    (10000 : Nat) < 4294976295 ∧ 4294976295 - 10000 + heard.cfg.gapUs < 2 ^ heard.cfg.widths.ts :=
  ⟨by decide, ⟨timesNeverDecrease_pair (by decide), by decide⟩, by decide⟩

theorem witness_PublishWritesTheHiddenEntryAndSwaps : (1 : BitVec 1) ≠ 1 - heard.visibleIdx := by decide

theorem witness_WithoutPublishTakeRepeatsItsAnswer : publishCount [.edgeFall 8000, .endOp] heard = 0 ∧
    ∃ t, runOps [.edgeFall 8000, .endOp] heard = .next t := ⟨by decide, _, rfl⟩

theorem witness_TempOfIsTheLinearMap : (0 : Nat) < 1 ∧ 2047 < 2 ^ Profile.full11.payloadWidth := by decide

/-- The ends of the range, and 36.6 °C. -/
theorem witness_EncodedTemperatureDecodesWithinHalfAStep :
    ((Profile.full11.lowC : Int) : Rat) ≤ -50 ∧ (150 : Rat) ≤ ((Profile.full11.highC : Int) : Rat) ∧
    ((Profile.narrow14.lowC : Int) : Rat) ≤ 183 / 5 ∧ (183 / 5 : Rat) ≤ ((Profile.narrow14.highC : Int) : Rat) := by
  decide +kernel

theorem witness_DecodeFailsExactlyOnInvalidEntries : heard.visible.valid = true ∧
    (0x1C00 : FrameBits).toNat % 2 ^ Profile.full11.payloadWidth =
      heard.visible.bits.toNat % 2 ^ Profile.full11.payloadWidth := by decide

theorem witness_PlausibleAgreesWithItsIntegerForm : jumped.repValid = true := by decide

theorem witness_RecommendedEncodingRoundsToNearestEven :
    0 < 2 ^ Profile.full11.payloadWidth ∧ 16383 < 2 ^ Profile.narrow14.payloadWidth := by decide

theorem witness_IsconnAnswersWhetherTheHeartbeatIsRecent :
    jumped.hbValid = true ∧ jumped.lastHeartbeatTimestamp = 103965 ∧ jumped.cfg.widths.ts = 32 := by decide

theorem witness_ConnectedCornerCases : (fresh .full11).hbValid = false ∧ heard.hbValid = true ∧
    0xFFFFFFFF < 2 ^ heard.cfg.widths.ts ∧ heard.lastHeartbeatTimestamp < 2 ^ heard.cfg.widths.ts ∧
    2 ^ heard.cfg.widths.ts - 1 ≤ 4294968 * 1000 ∧ heard.cfg.widths.ts = 32 := by decide

/-- With the last moment before the elapsed time wraps, and the first after it. -/
theorem witness_ConnectedMeasuresTrueElapsedTime : heard.hbValid = true ∧ heard.lastHeartbeatTimestamp = stampOf heard.cfg.widths 6965 ∧
    TimesNeverDecrease [6965, 4294974260] ∧ 4294974260 - 6965 < 2 ^ 32 ∧ TimesNeverDecrease [6965, 4294974261] ∧
    ¬ 4294974261 - 6965 < 2 ^ 32 :=
  ⟨by decide, by decide, timesNeverDecrease_pair (by decide), by decide, timesNeverDecrease_pair (by decide), by decide⟩

theorem witness_EndStopsAllProducerActivity : ∀ i ∈ [Instr.edgeFall 8000, .edgeRise 8060], i.port = .producer := by decide

/-- Without a reference, at the exact timeout; and with one, at the least plausible time (T3). -/
theorem witness_ReadReportsThePlausibleTemperature :
    (heard.hbValid = true ∧ interval heard.cfg.widths 106965 heard.lastHeartbeatTimestamp ≤ (100 : Nat) * 1000 ∧
      (heard.buf.read heard.visibleIdx).valid = true ∧ heard.repValid = false) ∧
    (jumped.hbValid = true ∧ interval jumped.cfg.widths 747551 jumped.lastHeartbeatTimestamp ≤ (1000 : Nat) * 1000 ∧
      (jumped.buf.read jumped.visibleIdx).valid = true ∧
      |((-50 : Int) : Rat) + ((1100 : Nat) : Rat) * (((150 : Int) : Rat) - ((-50 : Int) : Rat)) / ((2 : Rat) ^ 11 - 1) -
        tempOf .full11 jumped.lastReportedPayload.toNat| * 1000000 ≤
        jumped.cfg.rate.value * (interval jumped.cfg.widths 747551 jumped.lastReportedTimestamp : Rat)) :=
  ⟨by decide, by decide, by decide, by decide, by decide +kernel⟩

/-- One microsecond too old; and an operation that answers `NotConnected`. -/
theorem witness_ReadAnswersNotConnectedExactlyWithoutARecentFrame :
    (100 : Nat) * 1000 < interval heard.cfg.widths 106966 heard.lastHeartbeatTimestamp ∧
    ∃ t, exec (.read 106966 100) heard = .next t ∧ t.responses = heard.responses ++ [0x100000000] ∧
      (0x100000000 : RspWord).toNat / 2 ^ 32 = 1 := ⟨by decide, _, rfl, rfl, by decide⟩

/-- P4, steps 3 to 5, from the second frame's publication on. -/
theorem witness_SecondReadIsMisreadingExactlyWhenTheChangeIsTooFast :
    ∃ s3, exec (.read 8000 100) heard = .next reported ∧
      reported.responses.getLast?.map (·.toNat / 2 ^ 32) = some 0 ∧
      (∀ now tmo, Instr.read now tmo ∉ [.take, .edgeFall 106000]) ∧
      runOps [.take, .edgeFall 106000] reported = .next s3 ∧ s3.visible.valid = true ∧
      connected s3 106965 100 = true :=
  ⟨_, exec_of_after test_read_reports, by decide, by simp, rfl, by decide, by decide⟩

theorem witness_ConsumerWritesNoProducerState : Instr.port .take = .consumer ∧
    (∃ t, exec .take heard = .next t) ∧ (∀ a, Instr.take ≠ .beginOp a) ∧ Instr.take ≠ .endOp ∧
    ∀ now tmo, Instr.take ≠ .read now tmo :=
  ⟨rfl, ⟨_, rfl⟩, by simp, by simp, by simp⟩

theorem witness_QueriesIgnoreTheArmedBit : (∃ t, exec .take heard = .next t) ∧
    (∃ t, exec (.isconn 0 0) heard = .next t) ∧ exec (.read 8000 100) heard = .next reported :=
  ⟨⟨_, rfl⟩, ⟨_, rfl⟩, exec_of_after test_read_reports⟩

theorem witness_SilenceGivesNotConnected : (∀ i ∈ [Instr.take, .endOp], i.port = .consumer) ∧
    (∃ t, runOps [.take, .endOp] heard = .next t) ∧
    (100 : Nat) * 1000 < interval heard.cfg.widths 106966 heard.lastHeartbeatTimestamp :=
  ⟨by decide, ⟨_, rfl⟩, by decide⟩

/-- Two different states with another hidden entry, another hidden reference and other leftovers of the frame. -/
theorem witness_HiddenStateIsUnobservable :
    let t : State := { heard with
      buf := ⟨⟨0x123, true⟩, ⟨0x400, true⟩⟩, accumulator := 0x77, bitPosition := 3
      positionBound := by decide, lastReportedPayload := 5 }
    t ≠ heard ∧ SameObservable heard t ∧ ∃ s', runOps [.take, .edgeFall 8000] heard = .next s' :=
  ⟨by decide, by constructor <;> decide, _, rfl⟩

end Sys2Proof.Tests
end

/-! The statements of 00_scope.md: every operation completes with one result, a step runs what the decoder reads, and the
modular interval. -/

namespace Sys2Proof.Proofs

open Sys2Proof.Machine

/-! ### One step, by what stands first in the queue (log 3) -/

theorem step_nil (s : State) (h : s.pending = []) : step s = .next s := by
  simp [step, stepOnce, fetch, h]

theorem step_cons (s : State) (w : PortWord) (rest : List PortWord) (h : s.pending = w :: rest) :
    step s = runWord w { s with pending := rest } := by
  simp [step, stepOnce, fetch, h]

theorem runWord_instr (s : State) (w : PortWord) (i : Instr) (h : decode s.cfg.widths w = .instr i) :
    runWord w s = exec i s := by
  simp [runWord, h]

theorem runWord_reservedOp (s : State) (w : PortWord) (op : BitVec 3)
    (h : decode s.cfg.widths w = .reservedOp op) : runWord w s = .next (raise .badOperation s) := by
  simp [runWord, h, execReserved]

/-- Every delivered word is answered with a next state, a reserved command included (R14, R85). -/
theorem runWord_next (w : PortWord) (s : State) : ∃ t, runWord w s = .next t := by
  cases hd : decode s.cfg.widths w with
  | instr i => rw [runWord_instr s w i hd]; exact exec_next i s
  | reservedOp op => exact ⟨_, runWord_reservedOp s w op hd⟩

theorem step_next (s : State) : ∃ t, step s = .next t := by
  cases hp : s.pending with
  | nil => exact ⟨s, step_nil s hp⟩
  | cons w rest => rw [step_cons s w rest hp]; exact runWord_next w _

/-! ### The decoder reads well-formed operations (R79, R80) -/

theorem fitsTime_mod (k : Widths) (n : Nat) : k.fitsTime (n % 2 ^ k.ts) = true :=
  decide_eq_true (Nat.mod_lt n (Nat.two_pow_pos k.ts))

theorem fitsTimeout_mod (k : Widths) (n : Nat) : k.fitsTimeout (n % 2 ^ k.tmo) = true :=
  decide_eq_true (Nat.mod_lt n (Nat.two_pow_pos k.tmo))

theorem decodeEv_wf (k : Widths) (w : Nat) : (decodeEv k w).wf k = true := by
  unfold decodeEv
  cases evLevel k w with
  | falling => exact fitsTime_mod k w
  | rising => exact fitsTime_mod k w

/-- The two operand fields of a command word fit, whatever the word (R80). -/
theorem cmdOperands_fit (k : Widths) (w : Nat) :
    (k.fitsTime (cmdNow k w) && k.fitsTimeout (cmdTimeout k w)) = true :=
  Bool.and_eq_true_iff.2 ⟨fitsTime_mod k (w / 2 ^ k.tmo), fitsTimeout_mod k w⟩

theorem decodeCmd_wf (k : Widths) (w : Nat) (i : Instr) (h : decodeCmd k w = .instr i) : i.wf k = true := by
  unfold decodeCmd at h
  split at h <;> cases h
  case h_1 => rfl
  case h_2 => rfl
  case h_3 => rfl
  case h_4 => exact cmdOperands_fit k w
  case h_5 => exact cmdOperands_fit k w

theorem decode_wf (k : Widths) (w : PortWord) (i : Instr) (h : decode k w = .instr i) : i.wf k = true := by
  cases w with
  | ev w => cases h; exact decodeEv_wf k w
  | cmd w => exact decodeCmd_wf k w i h

/-- Settles O8: the queue is taken apart by `step_cons`, the word by `decode_wf` and `runWord_instr`. -/
theorem stepRunsTheDecodedOperation : Obligations.StepRunsTheDecodedOperation := by
  intro s w rest i hp hd
  exact ⟨decode_wf _ w i hd, (step_cons s w rest hp).trans (runWord_instr _ w i hd)⟩

/-! ### The responses of an operation (R14, R81) -/

theorem samplePulse_responses (w ts : Nat) (s : State) : (samplePulse w ts s).responses = s.responses := by
  rcases samplePulse_cases w ts s with
    ⟨_, h⟩ | ⟨_, h⟩ | ⟨_, h⟩ | ⟨_, _, h⟩ | ⟨_, _, _, h⟩ | ⟨_, _, _, h⟩ <;> simp [h]

theorem edge_responses (l : Level) (ts : Nat) (s : State) : (edge l ts s).responses = s.responses := by
  rcases edge_result l ts s with ⟨_, h⟩ | ⟨_, _, h⟩ | ⟨_, h⟩ | ⟨_, _, h⟩ | ⟨_, _, h⟩ <;>
    simp [h, samplePulse_responses]

/-- A producer operation gives no response. -/
theorem exec_producer_responses (i : Instr) (s t : State) (h : exec i s = .next t) (hi : i.port = .producer) :
    t.responses = s.responses := by
  rcases exec_result i s t h with
    ⟨ts, rfl, rfl⟩ | ⟨ts, rfl, rfl⟩ | ⟨rfl, rfl⟩ | ⟨st, d, hop, rfl, _⟩ | ⟨rfl, rfl⟩ | ⟨now, tmo, rfl, rfl⟩
  · exact edge_responses .falling ts s
  · exact edge_responses .rising ts s
  · cases hi
  · rcases hop with rfl | rfl | ⟨_, _, rfl⟩ | ⟨_, _, rfl⟩ <;> cases hi
  · cases hi
  · cases hi

/-- A consumer operation gives exactly one response. -/
theorem exec_consumer_responses (i : Instr) (s t : State) (h : exec i s = .next t) (hi : i.port = .consumer) :
    ∃ r, t.responses = s.responses ++ [r] := by
  rcases exec_result i s t h with
    ⟨ts, rfl, rfl⟩ | ⟨ts, rfl, rfl⟩ | ⟨rfl, rfl⟩ | ⟨st, d, _, rfl, _⟩ | ⟨rfl, rfl⟩ | ⟨now, tmo, rfl, rfl⟩
  · cases hi
  · cases hi
  all_goals exact ⟨_, rfl⟩

/-- Settles O11: the next state is that of `exec_next`, and its responses are those of the two lemmas above. -/
theorem everyOperationCompletesWithOneResult : Obligations.EveryOperationCompletesWithOneResult := by
  refine ⟨fun i s => ?_, step_next⟩
  obtain ⟨t, ht⟩ := exec_next i s
  have unique : ∀ t', exec i s = .next t' → t' = t := fun t' ht' =>
    Host.Outcome.next.inj (ht'.symm.trans ht)
  exact ⟨t, ht, unique, exec_producer_responses i s t ht, exec_consumer_responses i s t ht⟩

/-! ### The modular interval (R10) -/

/-- Adding the interval to the earlier time gives the later one, modulo `2^TS_W` (R10). -/
theorem interval_add_mod (k : Widths) (a b : Nat) : (interval k a b + b) % 2 ^ k.ts = a % 2 ^ k.ts := by
  apply Int.ofNat_inj.1
  rw [Int.natCast_mod, Int.natCast_mod, Nat.cast_add, interval_cast, Int.emod_add_emod, sub_add_cancel]

/-- A step back of less than `2^TS_W` gives what is left of the counter's range (R10). -/
theorem interval_of_lt (k : Widths) (a b : Nat) (h : a < b) (hd : b - a < 2 ^ k.ts) :
    interval k a b = 2 ^ k.ts - (b - a) := by
  apply Int.ofNat_inj.1
  have shifted : ((2 ^ k.ts - (b - a) : Nat) : Int) = (a : Int) - b + (2 ^ k.ts : Nat) := by omega
  rw [interval_cast, shifted, ← Int.add_emod_right]
  exact Int.emod_eq_of_lt (by omega) (by omega)

theorem interval_stampOf (k : Widths) (a b : Nat) : interval k (stampOf k a) (stampOf k b) = interval k a b :=
  interval_mod k a b

/-- Settles O39: the stamps drop out by `interval_stampOf`; forward the interval is the difference, and a step back leaves
more than `GAP_US` of the counter's range. -/
theorem modularIntervalIsTrueElapsedTime : Obligations.ModularIntervalIsTrueElapsedTime := by
  refine ⟨fun k a b => ⟨interval_lt k a b, interval_add_mod k a b⟩, fun c earlier later => ⟨?_, ?_⟩⟩
  · intro hle hd
    rw [interval_stampOf]
    exact interval_of_le _ _ _ (List.pairwise_pair.1 hle) hd
  · intro hlt hd
    rw [interval_stampOf, isGap_iff, interval_of_lt _ _ _ hlt (by omega)]
    omega

end Sys2Proof.Proofs

/-! The statements of 10_state.md: the reset values, the register invariants of R42 and the meaning of the running parity
(R24) along every step, and the edges of a block that is not armed. -/

namespace Sys2Proof.Proofs

open Sys2Proof.Machine

/-! ### A property that every step keeps -/

/-- What every well-formed operation and the answer to a reserved command keep, and the queue does not touch, every step
keeps: the decoder reads only well-formed operations. -/
theorem step_keeps (P : State → Prop) (hpop : ∀ s rest, P s → P { s with pending := rest })
    (hreserved : ∀ s, P s → P (raise .badOperation s))
    (hexec : ∀ i s t, i.wf s.cfg.widths = true → P s → exec i s = .next t → P t)
    (s t : State) (hs : P s) (h : step s = .next t) : P t := by
  rcases step_result s t h with ⟨_, rfl⟩ | ⟨w, rest, _, ⟨i, hd, ht⟩ | ⟨_, _, rfl⟩⟩
  · exact hs
  · exact hexec i { s with pending := rest } t (decode_wf _ w i hd) (hpop s rest hs) ht
  · exact hreserved _ (hpop s rest hs)

/-! ### The register invariants, one operation of the state at a time (R42)

Each proof names the invariants whose registers the operation writes; the others hold as before, by the definition of the
update. -/

/-- An entry that is valid after a write is the one written or was valid before. -/
theorem valid_of_valid_write {m : Memory} {i : BitVec 1} {e : RawFrame}
    (hv : (m.write i e).buf0.valid = true ∨ (m.write i e).buf1.valid = true) :
    e.valid = true ∨ m.buf0.valid = true ∨ m.buf1.valid = true := by
  rcases address_cases i with rfl | rfl
  · exact hv.elim .inl (fun h1 => .inr (.inr h1))
  · exact hv.elim (fun h0 => .inr (.inl h0)) .inl

section
variable {s : State} (h : s.Inv)
include h

theorem pending_inv (rest : List PortWord) : ({ s with pending := rest } : State).Inv := { h with }

theorem armed_inv (a : Bool) : ({ s with armed := a } : State).Inv := { h with }

theorem responses_inv (rs : List RspWord) : ({ s with responses := rs } : State).Inv := { h with }

theorem respond_inv (d : DataWord) : (respond d s).Inv := { h with }

theorem raise_inv (st : Status) : (raise st s).Inv := { h with }

theorem lastEdgeTimestamp_inv {ts : Nat} (hts : ts < 2 ^ s.cfg.widths.ts) :
    ({ s with lastEdgeTimestamp := ts } : State).Inv := { h with lastEdgeFits := hts }

theorem recordFirstEdge_inv {ts : Nat} (hts : ts < 2 ^ s.cfg.widths.ts) : (recordFirstEdge ts s).Inv :=
  { h with lastEdgeFits := hts }

/-- `BEGIN` forgets the phase, and with it all that the phase says of the position (R42 (f)). -/
theorem startSession_inv : (startSession s).Inv :=
  { h with
    receivingPosition := by simp
    parityPosition := by simp
    completePosition := by simp
    errorPosition := by simp
    startCleared := by simp }

theorem recordReport_inv (bits : FrameBits) {now : Nat} (hnow : now < 2 ^ s.cfg.widths.ts) :
    (recordReport (payloadOf s.cfg.profile bits) now s).Inv :=
  { h with
    reportTimeFits := hnow
    reportedFits := fun _ => payloadOf_lt _ _ }

theorem startCondition_inv : (startCondition s).Inv :=
  { h with
    accumulatorBound := by simp
    receivingPosition := by simp
    parityPosition := by simp
    completePosition := by simp
    errorPosition := by simp
    startCleared := by simp }

/-- The new threshold is bounded because a start pulse is not longer than `GAP_US` (R104, R114). -/
theorem takeStartPulse_inv {w : Nat} (hphase : s.phase = .startDetected) (hw : w ≤ s.cfg.gapUs) :
    (takeStartPulse w s).Inv := by
  obtain ⟨hpos, _, _⟩ := h.startCleared hphase
  have hD := firstGroup_lt s.cfg.profile
  exact { h with
    receivingPosition := fun _ => by rw [takeStartPulse_bitPosition, takeStartPulse_cfg]; omega
    parityPosition := by simp
    completePosition := by simp
    errorPosition := by simp
    startCleared := by simp
    thresholdBound := nextThreshold_le _ _ _ _ _ hw h.thresholdBound
    thresholdFits := nextThreshold_lt _ _ _ }

/-- With the invariants a data pulse finds room in the accumulator: nothing is shifted out (R118, R42 (b), (g)). -/
theorem shiftIn_toNat_of_receiving (hphase : s.phase = .receiving) (b : Bool) :
    (shiftIn s.cfg.profile s.accumulator b).toNat = 2 * s.accumulator.toNat + b.toNat ∧
      2 * s.accumulator.toNat + b.toNat < 2 ^ (s.bitPosition + 1) := by
  have hacc := h.accumulatorBound
  have hb := b.toNat_le
  have hlt : 2 * s.accumulator.toNat + b.toNat < 2 ^ (s.bitPosition + 1) := by rw [pow_succ]; omega
  refine ⟨?_, hlt⟩
  rw [shiftIn_toNat]
  exact Nat.mod_eq_of_lt (hlt.trans_le (Nat.pow_le_pow_right two_pos (h.receivingPosition hphase)))

theorem takeDataPulse_inv (w : Nat) (hphase : s.phase = .receiving) : (takeDataPulse w s).Inv := by
  have hlt := h.receivingPosition hphase
  have hnext := nextPosition_of_lt s.cfg.profile s.bitPosition hlt
  have hpar := isParityPosition_iff s.cfg.profile (s.bitPosition + 1)
  obtain ⟨hshift, hbound⟩ := shiftIn_toNat_of_receiving h hphase (classify w s.thresholdMicros)
  exact { h with
    accumulatorBound := by simpa only [takeDataPulse_accumulator, takeDataPulse_bitPosition, hnext, hshift] using hbound
    receivingPosition := by
      rw [takeDataPulse_phase, takeDataPulse_bitPosition, takeDataPulse_cfg, hnext]
      split
      · nofun
      · next hno => rw [hpar] at hno; omega
    parityPosition := by
      rw [takeDataPulse_phase, takeDataPulse_bitPosition, takeDataPulse_cfg, hnext]
      split
      · next hyes => exact fun _ => hpar.1 hyes
      · nofun
    completePosition := by rw [takeDataPulse_phase]; split <;> nofun
    errorPosition := by rw [takeDataPulse_phase]; split <;> nofun
    startCleared := by rw [takeDataPulse_phase]; split <;> nofun }

/-- The accumulator fits an entry of `D` bits, in every phase (R42 (g)). -/
theorem accumulator_lt : s.accumulator.toNat < 2 ^ s.cfg.profile.dataBits :=
  h.accumulatorBound.trans_le (Nat.pow_le_pow_right two_pos s.positionBound)

theorem enterFrameError_inv (hphase : s.phase = .parityCheck) : (enterFrameError s).Inv :=
  { h with
    entriesFit := Memory.wf_write _ _ _ _ h.entriesFit (accumulator_lt h)
    receivingPosition := by simp
    parityPosition := by simp
    completePosition := by simp
    errorPosition := fun _ => h.parityPosition hphase
    startCleared := by simp
    validEntryHeard := fun hv => h.validEntryHeard ((valid_of_valid_write hv).resolve_left Bool.false_ne_true) }

theorem completeFrame_inv {ts : Nat} (hpos : s.bitPosition = s.cfg.profile.dataBits)
    (hts : ts < 2 ^ s.cfg.widths.ts) : (completeFrame ts s).Inv :=
  { h with
    entriesFit := Memory.wf_write _ _ _ _ h.entriesFit (accumulator_lt h)
    receivingPosition := by simp
    parityPosition := by simp
    completePosition := fun _ => hpos
    errorPosition := by simp
    startCleared := by simp
    heartbeatFits := hts
    validEntryHeard := fun _ => rfl }

theorem passFirstParity_inv (hpos : s.bitPosition ≠ s.cfg.profile.dataBits) : (passFirstParity s).Inv :=
  { h with
    receivingPosition := fun _ => lt_of_le_of_ne s.positionBound hpos
    parityPosition := by simp
    completePosition := by simp
    errorPosition := by simp
    startCleared := by simp }

/-! ### The register invariants along pulses, edges, operations and steps -/

theorem samplePulse_inv {w ts : Nat} (hw : w ≤ s.cfg.gapUs) (hts : ts < 2 ^ s.cfg.widths.ts) :
    (samplePulse w ts s).Inv := by
  rcases samplePulse_cases w ts s with
    ⟨_, he⟩ | ⟨hp, he⟩ | ⟨hp, he⟩ | ⟨hp, _, he⟩ | ⟨_, _, hpos, he⟩ | ⟨_, _, hpos, he⟩ <;> rw [he]
  · exact h
  · exact takeStartPulse_inv h hp hw
  · exact takeDataPulse_inv h w hp
  · exact enterFrameError_inv h hp
  · exact completeFrame_inv h hpos hts
  · exact passFirstParity_inv h hpos

theorem edge_inv (l : Level) {ts : Nat} (hts : ts < 2 ^ s.cfg.widths.ts) : (edge l ts s).Inv := by
  have hmoved := lastEdgeTimestamp_inv h hts
  rcases edge_result l ts s with ⟨_, he⟩ | ⟨_, _, he⟩ | ⟨_, he⟩ | ⟨_, _, he⟩ | ⟨⟨_, _, hw⟩, _, he⟩ <;> rw [he]
  · exact h
  · exact recordFirstEdge_inv h hts
  · exact startCondition_inv hmoved
  · exact hmoved
  · exact samplePulse_inv hmoved hw hts

end

theorem exec_inv (i : Instr) (s t : State) (hwf : i.wf s.cfg.widths = true) (h : s.Inv) (he : exec i s = .next t) :
    t.Inv := by
  rcases exec_result i s t he with
    ⟨ts, rfl, rfl⟩ | ⟨ts, rfl, rfl⟩ | ⟨_, rfl⟩ | ⟨_, _, _, rfl, _⟩ | ⟨_, rfl⟩ | ⟨now, tmo, rfl, rfl⟩
  · exact edge_inv h .falling (of_decide_eq_true hwf)
  · exact edge_inv h .rising (of_decide_eq_true hwf)
  · exact respond_inv (startSession_inv h) 0
  · exact responses_inv h _
  · exact respond_inv (armed_inv h false) 0
  · obtain ⟨hnow, _⟩ := Bool.and_eq_true_iff.1 hwf
    exact respond_inv (recordReport_inv h s.visible.bits (of_decide_eq_true hnow)) _

theorem step_inv (s t : State) (h : s.Inv) (hst : step s = .next t) : t.Inv :=
  step_keeps State.Inv (fun _ rest hs => pending_inv hs rest) (fun _ hs => raise_inv hs .badOperation) exec_inv s t h hst

/-- Settles O15: `step_inv` is the step; the number is the bound of R104 at `GAP_US` = 1000 and `THRESH_RESET` = 0. -/
theorem everyStepKeepsTheRegisterInvariant : Obligations.EveryStepKeepsTheRegisterInvariant := by
  refine ⟨step_inv, fun s h hgap hreset => ?_⟩
  have hbound := h.thresholdBound
  rwa [hgap, hreset] at hbound

/-! ### The running parity (R24) -/

theorem parityOf_append_singleton (bits : List Bool) (b : Bool) :
    parityOf (bits ++ [b]) = parityWith (parityOf bits) b := by
  simp [parityOf, parityWith]

/-- A bit shifted in at the low end is the last of the list (R72, R118). -/
theorem msbFirst_shift (v : Nat) (b : Bool) (n : Nat) : msbFirst (2 * v + b.toNat) (n + 1) = msbFirst v n ++ [b] := by
  rw [← Nat.bit_val]
  induction n with
  | zero => simp [msbFirst]
  | succ n ih => rw [msbFirst, ih, Nat.testBit_bit_succ]; rfl

theorem groupLength_of_lt {s : State} (hpos : s.bitPosition < 9) : s.groupLength = s.bitPosition :=
  if_pos (.inl hpos)

/-- In `RECEIVING` from `bitPosition` = `G1` on, the first parity check has been passed (R42 (b)). -/
theorem groupLength_of_receiving {s : State} (hphase : s.phase = .receiving) (hpos : 9 ≤ s.bitPosition) :
    s.groupLength = s.bitPosition - 9 := by
  simp [State.groupLength, hphase, Nat.not_lt.2 hpos]

/-- A data pulse adds one bit to its group: at `bitPosition` = `G1` the first group waits for its check. -/
theorem takeDataPulse_groupLength {s : State} (w : Nat) (hphase : s.phase = .receiving)
    (hlt : s.bitPosition < s.cfg.profile.dataBits) : (takeDataPulse w s).groupLength = s.groupLength + 1 := by
  have hnext := nextPosition_of_lt s.cfg.profile s.bitPosition hlt
  rcases Nat.lt_or_ge s.bitPosition 9 with hpos | hpos
  · rw [groupLength_of_lt hpos]
    rcases Nat.lt_or_eq_of_le (Nat.succ_le_of_lt hpos) with hin | hend
    · rw [groupLength_of_lt (by rw [takeDataPulse_bitPosition, hnext]; exact hin), takeDataPulse_bitPosition, hnext]
    · have hat : s.bitPosition + 1 = 9 := hend
      simp [State.groupLength, hnext, hat, isParityPosition]
  · rw [groupLength_of_receiving hphase hpos]
    simp only [State.groupLength, takeDataPulse_bitPosition, takeDataPulse_cfg, hnext, firstGroup_eq]
    rw [if_neg (by omega)]
    omega

/-- In `IDLE` the register means nothing (R42 (f)). -/
theorem groupParity_of_idle {s : State} (hphase : s.phase = .idle) : s.GroupParity :=
  ⟨by simp [hphase], by simp [hphase]⟩

/-- The group is empty and the register clear: at a start condition and after the first parity check. -/
theorem groupParity_of_empty {s : State} (hpar : s.parityAccumulator = false) (hlen : s.groupLength = 0) :
    s.GroupParity :=
  ⟨fun _ => by rw [hlen, hpar]; rfl, fun _ => hpar⟩

theorem startCondition_groupParity (s : State) : (startCondition s).GroupParity :=
  groupParity_of_empty rfl (groupLength_of_lt (by simp))

theorem takeStartPulse_groupParity {s : State} (h : s.Inv) (w : Nat) (hphase : s.phase = .startDetected) :
    (takeStartPulse w s).GroupParity := by
  obtain ⟨hpos, _, hpar⟩ := h.startCleared hphase
  have hpos' : (takeStartPulse w s).bitPosition = 0 := hpos
  exact groupParity_of_empty hpar ((groupLength_of_lt (by omega)).trans hpos')

theorem completeFrame_groupParity (ts : Nat) (s : State) : (completeFrame ts s).GroupParity :=
  ⟨by simp, fun _ => rfl⟩

theorem passFirstParity_groupParity {s : State} (h : s.Inv) (hphase : s.phase = .parityCheck)
    (hpos : s.bitPosition ≠ s.cfg.profile.dataBits) : (passFirstParity s).GroupParity := by
  have hat : (passFirstParity s).bitPosition = 9 := (h.parityPosition hphase).resolve_right hpos
  exact groupParity_of_empty rfl (by rw [groupLength_of_receiving rfl hat.ge, hat])

section
variable {s : State} (hg : s.GroupParity)
include hg

/-- The pulse's bit is the last of the group, and the register takes it by exclusive or (R118). -/
theorem takeDataPulse_groupParity (h : s.Inv) (w : Nat) (hphase : s.phase = .receiving) :
    (takeDataPulse w s).GroupParity where
  running _ := by
    obtain ⟨hshift, _⟩ := shiftIn_toNat_of_receiving h hphase (classify w s.thresholdMicros)
    rw [takeDataPulse_parityAccumulator, takeDataPulse_accumulator, hshift,
      takeDataPulse_groupLength w hphase (h.receivingPosition hphase), msbFirst_shift, parityOf_append_singleton,
      hg.running (.inr (.inl hphase))]
  complete := by rw [takeDataPulse_phase]; split <;> nofun

/-- A failed check keeps the group and its register (R123): in both phases the bits at `bitPosition` = `G1` are those of
the first group. -/
theorem enterFrameError_groupParity (hphase : s.phase = .parityCheck) : (enterFrameError s).GroupParity where
  running _ := by
    have hlen : (enterFrameError s).groupLength = s.groupLength := by simp [State.groupLength, hphase]
    rw [hlen]
    exact hg.running (.inr (.inr (.inl hphase)))
  complete := by simp

theorem samplePulse_groupParity (h : s.Inv) (w ts : Nat) : (samplePulse w ts s).GroupParity := by
  rcases samplePulse_cases w ts s with
    ⟨_, he⟩ | ⟨hp, he⟩ | ⟨hp, he⟩ | ⟨hp, _, he⟩ | ⟨_, _, _, he⟩ | ⟨hp, _, hpos, he⟩ <;> rw [he]
  · exact hg
  · exact takeStartPulse_groupParity h w hp
  · exact takeDataPulse_groupParity hg h w hp
  · exact enterFrameError_groupParity hg hp
  · exact completeFrame_groupParity ts s
  · exact passFirstParity_groupParity h hp hpos

theorem edge_groupParity (h : s.Inv) (l : Level) {ts : Nat} (hts : ts < 2 ^ s.cfg.widths.ts) :
    (edge l ts s).GroupParity := by
  have hmoved : ({ s with lastEdgeTimestamp := ts } : State).GroupParity := { hg with }
  rcases edge_result l ts s with ⟨_, he⟩ | ⟨_, _, he⟩ | ⟨_, he⟩ | ⟨_, _, he⟩ | ⟨_, _, he⟩ <;> rw [he]
  · exact hg
  · exact { hg with }
  · exact startCondition_groupParity _
  · exact hmoved
  · exact samplePulse_groupParity hmoved (lastEdgeTimestamp_inv h hts) _ ts

theorem exec_groupParity (h : s.Inv) (i : Instr) (t : State) (hwf : i.wf s.cfg.widths = true)
    (he : exec i s = .next t) : t.GroupParity := by
  rcases exec_result i s t he with
    ⟨ts, rfl, rfl⟩ | ⟨ts, rfl, rfl⟩ | ⟨_, rfl⟩ | ⟨_, _, _, rfl, _⟩ | ⟨_, rfl⟩ | ⟨_, _, rfl, rfl⟩
  · exact edge_groupParity hg h .falling (of_decide_eq_true hwf)
  · exact edge_groupParity hg h .rising (of_decide_eq_true hwf)
  · exact groupParity_of_idle rfl
  all_goals exact { hg with }

end

/-- Settles O16: with the register invariants, every operation keeps the meaning of the running parity. -/
theorem everyStepKeepsTheGroupParity : Obligations.EveryStepKeepsTheGroupParity := by
  intro s t h hg hst
  have both : t.Inv ∧ t.GroupParity :=
    step_keeps (fun u => u.Inv ∧ u.GroupParity)
      (fun _ rest ⟨hu, hp⟩ => ⟨pending_inv hu rest, { hp with }⟩)
      (fun _ ⟨hu, hp⟩ => ⟨raise_inv hu .badOperation, { hp with }⟩)
      (fun i u v hwf ⟨hu, hp⟩ he => ⟨exec_inv i u v hwf hu he, exec_groupParity hp hu i v hwf he⟩) s t ⟨h, hg⟩ hst
  exact both.2

/-! ### Reset (R43, R231) -/

/-- Settles O12: both kinds of reset state are `State.resetWith`, whose registers are listed in its lemmas. -/
theorem resetRegisterValues : Obligations.ResetRegisterValues := by
  refine ⟨rfl, resetWith_thresholdMicros, fun r hr => ?_⟩
  obtain ⟨c, rfl⟩ : ∃ c : Config, r = State.resetWith c := hr.elim (fun h => ⟨Config.atReset, h⟩) id
  simp [Memory.read]

theorem resetWith_inv (c : Config) (hc : c.wf = true) : (State.resetWith c).Inv := by
  obtain ⟨_, hthreshold⟩ := Bool.and_eq_true_iff.1 hc
  exact {
    entriesFit := Memory.wf_reset c
    cfgLegal := hc
    accumulatorBound := by simp
    receivingPosition := by simp
    parityPosition := by simp
    completePosition := by simp
    errorPosition := by simp
    startCleared := by simp
    thresholdBound := le_max_left _ _
    thresholdFits := of_decide_eq_true hthreshold
    lastEdgeFits := Nat.two_pow_pos _
    heartbeatFits := Nat.two_pow_pos _
    reportTimeFits := Nat.two_pow_pos _
    reportedFits := by simp
    validEntryHeard := by simp }

/-- Settles O14: reset is `IDLE`, so the phases' conditions ask nothing; the configuration of `State.reset` is legal by
its numbers. -/
theorem resetSatisfiesTheInvariants : Obligations.ResetSatisfiesTheInvariants := by
  have legal : Config.atReset.wf = true := by decide
  have both (c : Config) (hc : c.wf = true) : (State.resetWith c).Inv ∧ (State.resetWith c).GroupParity :=
    ⟨resetWith_inv c hc, groupParity_of_idle (resetWith_phase c)⟩
  obtain ⟨hinv, hparity⟩ := both Config.atReset legal
  exact ⟨both, hinv, hparity, rfl, rfl, rfl⟩

/-! ### Edges of a block that is not armed (R36, R112 (1)) -/

/-- Settles O19: the test of `armed` comes first, for both levels. -/
theorem unarmedEdgeChangesNothing : Obligations.UnarmedEdgeChangesNothing := by
  intro s ts h
  rw [exec_edgeFall, exec_edgeRise, edge_unarmed .falling ts s h, edge_unarmed .rising ts s h]
  exact ⟨rfl, rfl⟩

end Sys2Proof.Proofs

/-! The statements of 20_memory.md: what no consumer operation writes (R60), the visible entry between publishes (R52), and
the state that the ports cannot observe (R58). -/

namespace Sys2Proof.Proofs

open Sys2Proof.Machine

/-! ### What no consumer operation writes (R60) -/

/-- What one consumer operation can do: start a session, only answer, disarm, or report a reading. -/
theorem exec_consumer_result (i : Instr) (s t : State) (hi : i.port = .consumer) (h : exec i s = .next t) :
    (i = .beginOp true ∧ t = respond 0 (startSession s)) ∨
    (∃ r, t = { s with responses := s.responses ++ [r] }) ∨
    (i = .endOp ∧ t = respond 0 { s with armed := false }) ∨
    (∃ now tmo, i = .read now tmo ∧ t = respond (tempEncode s.cfg.tempFormat s.visibleTemp)
        (recordReport (payloadOf s.cfg.profile s.visible.bits) now s)) := by
  rcases exec_result i s t h with ⟨_, rfl, _⟩ | ⟨_, rfl, _⟩ | hbegin | ⟨st, d, _, ht, _⟩ | hend | hread
  · cases hi
  · cases hi
  · exact .inl hbegin
  · exact .inr (.inl ⟨packRsp st d, ht⟩)
  · exact .inr (.inr (.inl hend))
  · exact .inr (.inr (.inr hread))

/-- The state that is the producer's alone, with the configuration and the queue, is the same in both states. -/
structure ProducerStateKept (s t : State) : Prop where
  bitPosition : t.bitPosition = s.bitPosition
  parityAccumulator : t.parityAccumulator = s.parityAccumulator
  accumulator : t.accumulator = s.accumulator
  lastEdgeTimestamp : t.lastEdgeTimestamp = s.lastEdgeTimestamp
  thresholdMicros : t.thresholdMicros = s.thresholdMicros
  buf : t.buf = s.buf
  visibleIdx : t.visibleIdx = s.visibleIdx
  hbValid : t.hbValid = s.hbValid
  lastHeartbeatTimestamp : t.lastHeartbeatTimestamp = s.lastHeartbeatTimestamp
  cfg : t.cfg = s.cfg
  pending : t.pending = s.pending

section
variable (i : Instr) (s t : State) (hi : i.port = .consumer) (h : exec i s = .next t)
include hi h

theorem exec_consumer_keeps_producerState : ProducerStateKept s t := by
  rcases exec_consumer_result i s t hi h with ⟨_, rfl⟩ | ⟨_, rfl⟩ | ⟨_, rfl⟩ | ⟨_, _, _, rfl⟩
  all_goals exact ⟨rfl, rfl, rfl, rfl, rfl, rfl, rfl, rfl, rfl, rfl, rfl⟩

/-- Only `BEGIN` writes `phase` and `lastEdgeValid` from the consumer port (R60, R181). -/
theorem exec_consumer_keeps_phase (hbegin : ∀ a, i ≠ .beginOp a) :
    t.phase = s.phase ∧ t.lastEdgeValid = s.lastEdgeValid := by
  rcases exec_consumer_result i s t hi h with ⟨rfl, _⟩ | ⟨_, rfl⟩ | ⟨_, rfl⟩ | ⟨_, _, _, rfl⟩
  · exact absurd rfl (hbegin true)
  all_goals exact ⟨rfl, rfl⟩

/-- Only `BEGIN` and `END` write `armed` (R36). -/
theorem exec_consumer_keeps_armed (hbegin : ∀ a, i ≠ .beginOp a) (hend : i ≠ .endOp) : t.armed = s.armed := by
  rcases exec_consumer_result i s t hi h with ⟨rfl, _⟩ | ⟨_, rfl⟩ | ⟨rfl, _⟩ | ⟨_, _, _, rfl⟩
  · exact absurd rfl (hbegin true)
  · rfl
  · exact absurd rfl hend
  · rfl

/-- Only `READ` writes the reported reading (R33 to R35). -/
theorem exec_consumer_keeps_report (hread : ∀ now tmo, i ≠ .read now tmo) :
    t.repValid = s.repValid ∧ t.lastReportedPayload = s.lastReportedPayload ∧
      t.lastReportedTimestamp = s.lastReportedTimestamp := by
  rcases exec_consumer_result i s t hi h with ⟨_, rfl⟩ | ⟨_, rfl⟩ | ⟨_, rfl⟩ | ⟨now, tmo, rfl, _⟩
  · exact ⟨rfl, rfl, rfl⟩
  · exact ⟨rfl, rfl, rfl⟩
  · exact ⟨rfl, rfl, rfl⟩
  · exact absurd rfl (hread now tmo)

end

/-- Settles O57, from the frame of a consumer operation and the three registers with an exception. -/
theorem consumerWritesNoProducerState : Obligations.ConsumerWritesNoProducerState := by
  intro i s t hi h
  have kept := exec_consumer_keeps_producerState i s t hi h
  exact ⟨kept.bitPosition, kept.parityAccumulator, kept.accumulator, kept.lastEdgeTimestamp, kept.thresholdMicros,
    fun a => congrArg (·.read a) kept.buf, kept.visibleIdx, kept.hbValid, kept.lastHeartbeatTimestamp, kept.cfg,
    kept.pending, exec_consumer_keeps_phase i s t hi h, exec_consumer_keeps_armed i s t hi h,
    exec_consumer_keeps_report i s t hi h⟩

/-! ### Between publishes the buffer stands still (R52) -/

theorem samplePulse_cfg (w ts : Nat) (s : State) : (samplePulse w ts s).cfg = s.cfg := by
  rcases samplePulse_cases w ts s with
    ⟨_, h⟩ | ⟨_, h⟩ | ⟨_, h⟩ | ⟨_, _, h⟩ | ⟨_, _, _, h⟩ | ⟨_, _, _, h⟩ <;> simp [h]

theorem edge_cfg (l : Level) (ts : Nat) (s : State) : (edge l ts s).cfg = s.cfg := by
  rcases edge_result l ts s with ⟨_, h⟩ | ⟨_, _, h⟩ | ⟨_, h⟩ | ⟨_, _, h⟩ | ⟨_, _, h⟩ <;>
    simp [h, samplePulse_cfg]

/-- A pulse that does not swap the entries does not write the buffer: both come only from a `publish` (R30). -/
theorem samplePulse_buf_of_visibleIdx (w ts : Nat) (s : State)
    (hidx : (samplePulse w ts s).visibleIdx = s.visibleIdx) : (samplePulse w ts s).buf = s.buf := by
  rcases samplePulse_cases w ts s with
    ⟨_, h⟩ | ⟨_, h⟩ | ⟨_, h⟩ | ⟨_, _, h⟩ | ⟨_, _, _, h⟩ | ⟨_, _, _, h⟩ <;> rw [h] at hidx ⊢
  case inr.inr.inr.inl => exact absurd hidx (other_ne s.visibleIdx)
  case inr.inr.inr.inr.inl => exact absurd hidx (other_ne s.visibleIdx)
  all_goals rfl

theorem edge_buf_of_visibleIdx (l : Level) (ts : Nat) (s : State)
    (hidx : (edge l ts s).visibleIdx = s.visibleIdx) : (edge l ts s).buf = s.buf := by
  rcases edge_result l ts s with ⟨_, h⟩ | ⟨_, _, h⟩ | ⟨_, h⟩ | ⟨_, _, h⟩ | ⟨_, _, h⟩ <;> rw [h] at hidx ⊢
  case inr.inr.inr.inr => exact samplePulse_buf_of_visibleIdx _ _ _ hidx
  all_goals rfl

/-- What `TAKE` looks at is the same in both states. -/
structure TakeStateKept (s t : State) : Prop where
  cfg : t.cfg = s.cfg
  buf : t.buf = s.buf
  visibleIdx : t.visibleIdx = s.visibleIdx

theorem TakeStateKept.visible {s t : State} (h : TakeStateKept s t) : t.visible = s.visible := by
  rw [State.visible, State.visible, h.buf, h.visibleIdx]

theorem exec_keeps_takeState (i : Instr) (s t : State) (h : exec i s = .next t)
    (hidx : t.visibleIdx = s.visibleIdx) : TakeStateKept s t := by
  cases hi : i.port with
  | producer =>
    obtain ⟨l, ts, rfl⟩ : ∃ l ts, t = edge l ts s := by
      cases i with
      | edgeFall ts => exact ⟨.falling, ts, (Host.Outcome.next.inj h).symm⟩
      | edgeRise ts => exact ⟨.rising, ts, (Host.Outcome.next.inj h).symm⟩
      | _ => cases hi
    exact ⟨edge_cfg l ts s, edge_buf_of_visibleIdx l ts s hidx, hidx⟩
  | consumer =>
    have kept := exec_consumer_keeps_producerState i s t hi h
    exact ⟨kept.cfg, kept.buf, hidx⟩

theorem publishCount_cons (i : Instr) (ops : List Instr) (s t : State) (h : exec i s = .next t) :
    publishCount (i :: ops) s = (if t.visibleIdx = s.visibleIdx then 0 else 1) + publishCount ops t := by
  simp [publishCount, h]

/-- No `publish` among `i :: ops` means that `i` did not swap the entries and `ops` do not publish. -/
theorem publishCount_cons_eq_zero (i : Instr) (ops : List Instr) (s t : State) (h : exec i s = .next t) :
    publishCount (i :: ops) s = 0 ↔ t.visibleIdx = s.visibleIdx ∧ publishCount ops t = 0 := by
  simp [publishCount_cons i ops s t h]

theorem runOps_keeps_takeState (ops : List Instr) (s t : State) (hcount : publishCount ops s = 0)
    (h : runOps ops s = .next t) : TakeStateKept s t := by
  induction ops generalizing s with
  | nil => cases h; exact ⟨rfl, rfl, rfl⟩
  | cons i rest ih =>
    obtain ⟨u, hu⟩ := exec_next i s
    obtain ⟨hidx, hrest⟩ := (publishCount_cons_eq_zero i rest s u hu).1 hcount
    have head := exec_keeps_takeState i s u hu hidx
    have tail := ih u hrest (runOps_cons i rest s u hu ▸ h)
    exact ⟨tail.cfg.trans head.cfg, tail.buf.trans head.buf, tail.visibleIdx.trans head.visibleIdx⟩

/-- Settles O42: the answer of `TAKE` is a function of the profile and the visible entry, and both are kept. -/
theorem withoutPublishTakeRepeatsItsAnswer : Obligations.WithoutPublishTakeRepeatsItsAnswer := by
  intro ops s t hcount h
  have kept := runOps_keeps_takeState ops s t hcount h
  have answer : takeData t.cfg.profile t.visible = takeData s.cfg.profile s.visible := by rw [kept.cfg, kept.visible]
  refine ⟨kept.buf, kept.visible, packRsp .ok (takeData s.cfg.profile s.visible), rfl, ?_⟩
  rw [exec_take, answer]
  rfl

/-! ### What the ports cannot observe (R58, R43, R231)

The registers that a frame builds on are related only while a frame is in progress, so each operation of the assembler
names the phase it finds. -/

theorem enterFrameError_visible (s : State) : (enterFrameError s).visible = ⟨s.accumulator, false⟩ :=
  publish_visible _ _ _

theorem completeFrame_visible (ts : Nat) (s : State) : (completeFrame ts s).visible = ⟨s.accumulator, true⟩ :=
  publish_visible s.accumulator true { s with parityAccumulator := false, phase := .frameComplete }

section
variable {s t : State} (h : SameObservable s t)
include h

/-! #### The consumer's side -/

theorem respond_sameObservable (d : DataWord) : SameObservable (respond d s) (respond d t) :=
  { h with responses := congrArg (· ++ [packRsp .ok d]) h.responses }

theorem raise_sameObservable (st : Status) : SameObservable (raise st s) (raise st t) :=
  { h with responses := congrArg (· ++ [packRsp st 0]) h.responses }

theorem startSession_sameObservable : SameObservable (startSession s) (startSession t) :=
  { h with
    phase := rfl
    frameRegisters := by simp
    lastEdgeValid := rfl
    lastEdgeTimestamp := by simp
    armed := rfl }

theorem armed_sameObservable (a : Bool) : SameObservable { s with armed := a } { t with armed := a } :=
  { h with armed := rfl }

theorem recordReport_sameObservable (payload : FrameBits) (now : Nat) :
    SameObservable (recordReport payload now s) (recordReport payload now t) :=
  { h with
    repValid := rfl
    lastReported := fun _ => ⟨rfl, rfl⟩ }

/-- The heartbeat's time is looked at only under its valid bit (R172). -/
theorem connected_sameObservable (now tmo : Nat) : connected s now tmo = connected t now tmo := by
  unfold connected
  rw [← h.hbValid, ← h.cfg]
  cases hv : s.hbValid with
  | false => rfl
  | true => rw [h.lastHeartbeatTimestamp hv]

/-- The reported reading is looked at only under its valid bit (R155). -/
theorem plausible_sameObservable (temp : Rat) (now : Nat) : plausible s temp now = plausible t temp now := by
  unfold plausible
  rw [← h.repValid, ← h.cfg]
  cases hv : s.repValid with
  | false => rfl
  | true =>
    obtain ⟨hpayload, htime⟩ := h.lastReported hv
    rw [hpayload, htime]

theorem decodeChecked_sameObservable (now : Nat) :
    decodeChecked s s.visible now = decodeChecked t t.visible now := by
  unfold decodeChecked
  rw [← h.cfg, ← h.visible]
  simp only [plausible_sameObservable h]

theorem execRead_sameObservable (now tmo : Nat) :
    ∃ s' t', execRead now tmo s = .next s' ∧ execRead now tmo t = .next t' ∧ SameObservable s' t' := by
  unfold execRead
  rw [← connected_sameObservable h, ← decodeChecked_sameObservable h, ← h.cfg, ← h.visible]
  cases connected s now tmo with
  | false => exact ⟨_, _, rfl, rfl, raise_sameObservable h .notConnected⟩
  | true =>
    cases decodeChecked s s.visible now with
    | none => exact ⟨_, _, rfl, rfl, raise_sameObservable h .misreading⟩
    | some temp => exact ⟨_, _, rfl, rfl, respond_sameObservable (recordReport_sameObservable h _ now) _⟩

/-! #### The producer's side -/

theorem lastEdgeTimestamp_sameObservable (ts : Nat) :
    SameObservable { s with lastEdgeTimestamp := ts } { t with lastEdgeTimestamp := ts } :=
  { h with lastEdgeTimestamp := fun _ => rfl }

theorem recordFirstEdge_sameObservable (ts : Nat) : SameObservable (recordFirstEdge ts s) (recordFirstEdge ts t) :=
  { h with
    lastEdgeValid := rfl
    lastEdgeTimestamp := fun _ => rfl }

theorem startCondition_sameObservable : SameObservable (startCondition s) (startCondition t) :=
  { h with
    phase := rfl
    frameRegisters := fun _ => ⟨rfl, rfl, rfl⟩ }

theorem takeStartPulse_sameObservable (w : Nat) (hphase : s.phase = .startDetected) :
    SameObservable (takeStartPulse w s) (takeStartPulse w t) :=
  { h with
    phase := rfl
    frameRegisters := fun _ => h.frameRegisters (.inl hphase)
    thresholdMicros := by simp [h.cfg, h.thresholdMicros] }

theorem takeDataPulse_sameObservable (w : Nat) (hphase : s.phase = .receiving) :
    SameObservable (takeDataPulse w s) (takeDataPulse w t) := by
  obtain ⟨hpos, hpar, hacc⟩ := h.frameRegisters (.inr (.inl hphase))
  exact { h with
    phase := by simp [h.cfg, hpos]
    frameRegisters := fun _ => by simp [h.cfg, h.thresholdMicros, hpos, hpar, hacc] }

theorem enterFrameError_sameObservable (hphase : s.phase = .parityCheck) :
    SameObservable (enterFrameError s) (enterFrameError t) := by
  obtain ⟨_, _, hacc⟩ := h.frameRegisters (.inr (.inr hphase))
  exact { h with
    phase := rfl
    frameRegisters := by simp
    visible := by rw [enterFrameError_visible, enterFrameError_visible, hacc] }

theorem completeFrame_sameObservable (ts : Nat) (hphase : s.phase = .parityCheck) :
    SameObservable (completeFrame ts s) (completeFrame ts t) := by
  obtain ⟨_, _, hacc⟩ := h.frameRegisters (.inr (.inr hphase))
  exact { h with
    phase := rfl
    frameRegisters := by simp
    visible := by rw [completeFrame_visible, completeFrame_visible, hacc]
    hbValid := rfl
    lastHeartbeatTimestamp := fun _ => rfl }

theorem passFirstParity_sameObservable (hphase : s.phase = .parityCheck) :
    SameObservable (passFirstParity s) (passFirstParity t) := by
  obtain ⟨hpos, _, hacc⟩ := h.frameRegisters (.inr (.inr hphase))
  exact { h with
    phase := rfl
    frameRegisters := fun _ => ⟨hpos, rfl, hacc⟩ }

theorem takeParityPulse_sameObservable (w ts : Nat) (hphase : s.phase = .parityCheck) :
    SameObservable (takeParityPulse w ts s) (takeParityPulse w ts t) := by
  obtain ⟨hpos, hpar, _⟩ := h.frameRegisters (.inr (.inr hphase))
  unfold takeParityPulse
  rw [← h.thresholdMicros, ← h.cfg, ← hpos, ← hpar]
  split_ifs
  · exact enterFrameError_sameObservable h hphase
  · exact completeFrame_sameObservable h ts hphase
  · exact passFirstParity_sameObservable h hphase

theorem samplePulse_sameObservable (w ts : Nat) : SameObservable (samplePulse w ts s) (samplePulse w ts t) := by
  unfold samplePulse
  rw [← h.phase]
  cases hphase : s.phase with
  | idle => exact h
  | startDetected => exact takeStartPulse_sameObservable h w hphase
  | receiving => exact takeDataPulse_sameObservable h w hphase
  | parityCheck => exact takeParityPulse_sameObservable h w ts hphase
  | frameComplete => exact h
  | frameError => exact h

/-- The last edge's time is looked at only under its valid bit, so both states measure the same interval (R112). -/
theorem interval_sameObservable (ts : Nat) (hvalid : s.lastEdgeValid = true) :
    interval s.cfg.widths ts s.lastEdgeTimestamp = interval t.cfg.widths ts t.lastEdgeTimestamp := by
  rw [h.cfg, h.lastEdgeTimestamp hvalid]

theorem startsFrameAt_sameObservable {ts : Nat} (hgap : s.startsFrameAt ts) : t.startsFrameAt ts := by
  obtain ⟨harmed, hvalid, hw⟩ := hgap
  rw [interval_sameObservable h ts hvalid, h.cfg] at hw
  exact ⟨h.armed ▸ harmed, h.lastEdgeValid ▸ hvalid, hw⟩

theorem inFrameAt_sameObservable {ts : Nat} (hin : s.inFrameAt ts) : t.inFrameAt ts := by
  obtain ⟨harmed, hvalid, hw⟩ := hin
  rw [interval_sameObservable h ts hvalid, h.cfg] at hw
  exact ⟨h.armed ▸ harmed, h.lastEdgeValid ▸ hvalid, hw⟩

theorem edge_sameObservable (l : Level) (ts : Nat) : SameObservable (edge l ts s) (edge l ts t) := by
  have moved := lastEdgeTimestamp_sameObservable h ts
  rcases edge_cases ts s with harmed | ⟨harmed, hvalid⟩ | hgap | hin
  · rw [edge_unarmed l ts s harmed, edge_unarmed l ts t (h.armed ▸ harmed)]
    exact h
  · rw [edge_first l ts s harmed hvalid, edge_first l ts t (h.armed ▸ harmed) (h.lastEdgeValid ▸ hvalid)]
    exact recordFirstEdge_sameObservable h ts
  · rw [edge_gap l ts s hgap, edge_gap l ts t (startsFrameAt_sameObservable h hgap)]
    exact startCondition_sameObservable moved
  · have hin' := inFrameAt_sameObservable h hin
    cases l with
    | falling =>
      rw [edge_falling_inFrame ts s hin, edge_falling_inFrame ts t hin']
      exact moved
    | rising =>
      rw [edge_rising_inFrame ts s hin, edge_rising_inFrame ts t hin']
      obtain ⟨_, hvalid, _⟩ := hin
      rw [interval_sameObservable h ts hvalid]
      exact samplePulse_sameObservable moved _ ts

/-! #### Every operation -/

theorem exec_sameObservable (i : Instr) :
    ∃ s' t', exec i s = .next s' ∧ exec i t = .next t' ∧ SameObservable s' t' := by
  cases i with
  | edgeFall ts => exact ⟨_, _, rfl, rfl, edge_sameObservable h .falling ts⟩
  | edgeRise ts => exact ⟨_, _, rfl, rfl, edge_sameObservable h .rising ts⟩
  | beginOp attachOk =>
    cases attachOk with
    | false => exact ⟨_, _, rfl, rfl, raise_sameObservable h .beginFailed⟩
    | true => exact ⟨_, _, rfl, rfl, respond_sameObservable (startSession_sameObservable h) 0⟩
  | endOp => exact ⟨_, _, rfl, rfl, respond_sameObservable (armed_sameObservable h false) 0⟩
  | take =>
    rw [exec_take, exec_take, ← h.cfg, ← h.visible]
    exact ⟨_, _, rfl, rfl, respond_sameObservable h _⟩
  | isconn now tmo =>
    rw [exec_isconn, exec_isconn, ← connected_sameObservable h]
    exact ⟨_, _, rfl, rfl, respond_sameObservable h _⟩
  | read now tmo => exact execRead_sameObservable h now tmo

end

theorem runOps_sameObservable (ops : List Instr) {s t s' : State} (h : SameObservable s t)
    (hrun : runOps ops s = .next s') : ∃ t', runOps ops t = .next t' ∧ SameObservable s' t' := by
  induction ops generalizing s t with
  | nil => cases hrun; exact ⟨t, rfl, h⟩
  | cons i rest ih =>
    obtain ⟨u, v, hu, hv, huv⟩ := exec_sameObservable h i
    rw [runOps_cons i rest s u hu] at hrun
    rw [runOps_cons i rest t v hv]
    exact ih huv hrun

/-- Settles O60: `SameObservable` is kept along the run, and contains the equality of the responses. -/
theorem hiddenStateIsUnobservable : Obligations.HiddenStateIsUnobservable := by
  intro ops s t s' h hrun
  obtain ⟨t', ht', hrel⟩ := runOps_sameObservable ops h hrun
  exact ⟨t', ht', hrel.responses.symm, hrel⟩

end Sys2Proof.Proofs

/-! The statements of 30_encoding.md: the port words and the decoder (R79, R80, R84, R85), the responses (R81), the bit
list of a frame and the payload of a temperature (R91). -/

namespace Sys2Proof.Proofs

open Sys2Proof.Machine Sys2Proof.Laws

/-! ### The words of the encoder (R79, R80) -/

/-- The bit of `BEGIN` fits the lowest field, which has at least one bit (R80). -/
theorem attachOk_lt (k : Widths) (hk : k.wf = true) (a : Bool) : a.toNat < 2 ^ k.tmo := by
  obtain ⟨_, htmo⟩ := Bool.and_eq_true_iff.1 hk
  exact a.toNat_le.trans_lt (Nat.one_lt_two_pow (of_decide_eq_true htmo).ne')

theorem packEv_lt (k : Widths) (l : BitVec 1) (t : Nat) (ht : t < 2 ^ k.ts) : packEv k l t < 2 ^ (k.ts + 1) := by
  rw [packEv, Nat.pow_succ', Nat.mul_comm]
  exact Nat.mul_add_lt_mul_of_lt_of_lt l.isLt ht

theorem packCmd_lt (k : Widths) (op : BitVec 3) (n m : Nat) (hn : n < 2 ^ k.ts) (hm : m < 2 ^ k.tmo) :
    packCmd k op n m < 2 ^ (3 + k.ts + k.tmo) := by
  rw [packCmd, Nat.add_assoc, Nat.add_assoc, Nat.pow_add 2 3, Nat.mul_comm]
  exact Nat.mul_add_lt_mul_of_lt_of_lt op.isLt (operands_lt k n m hn hm)

theorem encode_wf (k : Widths) (i : Instr) (hk : k.wf = true) (hi : i.wf k = true) : (encode k i).wf k = true := by
  cases i with
  | edgeFall t => exact decide_eq_true (packEv_lt k 0 t (of_decide_eq_true hi))
  | edgeRise t => exact decide_eq_true (packEv_lt k 1 t (of_decide_eq_true hi))
  | beginOp a => exact decide_eq_true (packCmd_lt k 0 0 a.toNat (Nat.two_pow_pos _) (attachOk_lt k hk a))
  | endOp => exact decide_eq_true (packCmd_lt k 1 0 0 (Nat.two_pow_pos _) (Nat.two_pow_pos _))
  | take => exact decide_eq_true (packCmd_lt k 2 0 0 (Nat.two_pow_pos _) (Nat.two_pow_pos _))
  | isconn n m =>
    obtain ⟨hn, hm⟩ := Bool.and_eq_true_iff.1 hi
    exact decide_eq_true (packCmd_lt k 3 n m (of_decide_eq_true hn) (of_decide_eq_true hm))
  | read n m =>
    obtain ⟨hn, hm⟩ := Bool.and_eq_true_iff.1 hi
    exact decide_eq_true (packCmd_lt k 4 n m (of_decide_eq_true hn) (of_decide_eq_true hm))

theorem decode_encode (k : Widths) (i : Instr) (hk : k.wf = true) (hi : i.wf k = true) :
    decode k (encode k i) = .instr i := by
  cases i with
  | edgeFall t => exact EncodeDecode.edgeFall t k hk hi
  | edgeRise t => exact EncodeDecode.edgeRise t k hk hi
  | beginOp a => exact EncodeDecode.beginOp a k hk hi
  | endOp => exact EncodeDecode.endOp k hk hi
  | take => exact EncodeDecode.take k hk hi
  | isconn n m => exact EncodeDecode.isconn n m k hk hi
  | read n m => exact EncodeDecode.read n m k hk hi

/-- Settles O1: the round trip of each operation is in `Laws/PerInstr`, and the fields put together stay below the weight
of the next bit. -/
theorem decodeInvertsEncode : Obligations.DecodeInvertsEncode := fun k i hk hi =>
  ⟨decode_encode k i hk hi, encode_wf k i hk hi⟩

/-! ### EV words (R79) -/

theorem decodeEv_of_lt (k : Widths) (w : Nat) (hw : w < 2 ^ k.ts) : decodeEv k w = .edgeFall (w % 2 ^ k.ts) := by
  simp [decodeEv, evLevel, evTimestamp, Nat.div_eq_of_lt hw]

theorem decodeEv_of_le (k : Widths) (w : Nat) (hle : 2 ^ k.ts ≤ w) (hw : w < 2 ^ (k.ts + 1)) :
    decodeEv k w = .edgeRise (w % 2 ^ k.ts) := by
  have hlevel : w / 2 ^ k.ts = 1 := Nat.div_eq_of_lt_le (by omega) (by omega)
  simp [decodeEv, evLevel, evTimestamp, hlevel]

/-- Every word of the format is an event's: encoding what it decodes to gives the word back (R79). -/
theorem encode_decodeEv (k : Widths) (w : Nat) (hw : w < 2 ^ (k.ts + 1)) : encode k (decodeEv k w) = .ev w := by
  rcases Nat.lt_or_ge w (2 ^ k.ts) with hlt | hle
  · simp [decodeEv_of_lt k w hlt, encode, packEv, Nat.mod_eq_of_lt hlt]
  · have hmod : w % 2 ^ k.ts = w - 2 ^ k.ts := by
      rw [Nat.mod_eq_sub_mod hle, Nat.mod_eq_of_lt (by omega)]
    simp [decodeEv_of_le k w hle hw, encode, packEv, hmod, Nat.add_sub_of_le hle]

/-- Settles O2: the level is whether the word reaches `2^TS_W`, and `encode_decodeEv` gives the word back. -/
theorem everyEdgeWordIsALegalEvent : Obligations.EveryEdgeWordIsALegalEvent := by
  intro w hw
  have back := encode_decodeEv Widths.standard w hw
  refine ⟨w % 2 ^ 32, rfl, fun hle => ?_, fun hlt => ?_⟩
  · have rise := decodeEv_of_le Widths.standard w hle hw
    exact ⟨congrArg Decoded.instr rise, rise ▸ back⟩
  · have fall := decodeEv_of_lt Widths.standard w hlt
    exact ⟨congrArg Decoded.instr fall, fall ▸ back⟩

/-! ### CMD words, by the value of `op` (R80, R84, R85) -/

theorem cmdOp_toNat (k : Widths) (w : Nat) (hw : w < 2 ^ (3 + (k.ts + k.tmo))) :
    (cmdOp k w).toNat = w / 2 ^ (k.ts + k.tmo) := by
  rw [Nat.pow_add] at hw
  rw [cmdOp, BitVec.toNat_ofNat, Nat.mod_eq_of_lt (Nat.div_lt_of_lt_mul (Nat.mul_comm _ _ ▸ hw))]

section
variable (k : Widths) (w : Nat)

theorem decodeCmd_begin (h : (cmdOp k w).toNat = 0) : decodeCmd k w = .instr (.beginOp (cmdAttachOk w)) := by
  simp only [decodeCmd, h]

theorem decodeCmd_end (h : (cmdOp k w).toNat = 1) : decodeCmd k w = .instr .endOp := by
  simp only [decodeCmd, h]

theorem decodeCmd_take (h : (cmdOp k w).toNat = 2) : decodeCmd k w = .instr .take := by
  simp only [decodeCmd, h]

theorem decodeCmd_isconn (h : (cmdOp k w).toNat = 3) :
    decodeCmd k w = .instr (.isconn (cmdNow k w) (cmdTimeout k w)) := by
  simp only [decodeCmd, h]

theorem decodeCmd_read (h : (cmdOp k w).toNat = 4) :
    decodeCmd k w = .instr (.read (cmdNow k w) (cmdTimeout k w)) := by
  simp only [decodeCmd, h]

theorem decodeCmd_reserved (h : 5 ≤ (cmdOp k w).toNat) : decodeCmd k w = .reservedOp (cmdOp k w) := by
  unfold decodeCmd
  split
  case h_6 => rfl
  all_goals omega

end

/-- Settles O3: `op` is the quotient by `2^64`, and each of its values has its equation. -/
theorem commandWordFieldsAreReadInPlace : Obligations.CommandWordFieldsAreReadInPlace := by
  intro w hw
  have hop : (cmdOp Widths.standard w).toNat = w / 2 ^ 64 := cmdOp_toNat Widths.standard w hw
  exact ⟨fun h => decodeCmd_begin _ w (hop.trans h), fun h => decodeCmd_end _ w (hop.trans h),
    fun h => decodeCmd_take _ w (hop.trans h), fun h => decodeCmd_isconn _ w (hop.trans h),
    fun h => decodeCmd_read _ w (hop.trans h)⟩

/-- What a word decodes to is settled by its `op`, but for the operands of `ISCONN` and `READ` and the bit of `BEGIN`. -/
theorem decodeCmd_congr (k : Widths) (w w' : Nat) (hop : cmdOp k w = cmdOp k w') (h3 : (cmdOp k w).toNat ≠ 3)
    (h4 : (cmdOp k w).toNat ≠ 4) (h0 : (cmdOp k w).toNat = 0 → w % 2 = w' % 2) :
    decodeCmd k w = decodeCmd k w' := by
  have hop' : (cmdOp k w').toNat = (cmdOp k w).toNat := congrArg BitVec.toNat hop.symm
  obtain h | h | h | h : (cmdOp k w).toNat = 0 ∨ (cmdOp k w).toNat = 1 ∨ (cmdOp k w).toNat = 2 ∨
      5 ≤ (cmdOp k w).toNat := by omega
  · rw [decodeCmd_begin k w h, decodeCmd_begin k w' (hop'.trans h), cmdAttachOk, cmdAttachOk, h0 h]
  · rw [decodeCmd_end k w h, decodeCmd_end k w' (hop'.trans h)]
  · rw [decodeCmd_take k w h, decodeCmd_take k w' (hop'.trans h)]
  · rw [decodeCmd_reserved k w h, decodeCmd_reserved k w' (hop' ▸ h), hop]

theorem runWord_congr (s : State) (w w' : PortWord) (h : decode s.cfg.widths w = decode s.cfg.widths w') :
    runWord w s = runWord w' s := by
  rw [runWord, runWord, h]

/-- Settles O4: the two words decode alike, and a step looks at a word only through the decoder. -/
theorem ignoredCommandBitsChangeNothing : Obligations.IgnoredCommandBitsChangeNothing := by
  intro w w' rest s opAt hw _ hq h3 h4 h0
  have hop : (cmdOp s.cfg.widths w).toNat = w / 2 ^ opAt := cmdOp_toNat s.cfg.widths w hw
  rw [step_cons _ (.cmd w) rest rfl, step_cons _ (.cmd w') rest rfl]
  exact runWord_congr _ _ _ (decodeCmd_congr s.cfg.widths w w' (congrArg (BitVec.ofNat 3) hq) (hop ▸ h3) (hop ▸ h4)
    (hop ▸ h0))

/-- Settles O5: the word decodes to a reserved `op`, which is answered with `BadOperation`. -/
theorem reservedCommandAnswersBadOperation : Obligations.ReservedCommandAnswersBadOperation := by
  intro s w rest hk hw hp hop
  have hcmd : (cmdOp s.cfg.widths w).toNat = w / 2 ^ 64 := by rw [hk]; exact cmdOp_toNat Widths.standard w hw
  rw [step_cons s _ rest hp]
  exact runWord_reservedOp _ _ _ (decodeCmd_reserved s.cfg.widths w (hcmd ▸ hop))

/-! ### The numbering of `spec/opcode_table.json` (log 8) -/

theorem portWordOf_ev (w : Nat) (hw : w < 2 ^ 33) : portWordOf 40 w = some (.ev w) := if_pos hw

theorem portWordOf_cmd (w : Nat) (hw : w < 2 ^ 67) : portWordOf 72 w = some (.cmd w) := if_pos hw

/-- The word of a row, once placed, is the one that the next step runs (log 3). -/
theorem step_withFetchWord (s : State) (nbits w : Nat) (p : PortWord) (h : portWordOf nbits w = some p) :
    step (s.withFetchWord nbits w) = runWord p s := by
  have placed : s.withFetchWord nbits w = { s with pending := p :: s.pending } := by
    rw [State.withFetchWord, deliverWord, h]
  rw [placed, step_cons _ p s.pending rfl]

/-- Settles O10: the encoding fits its row, and the word placed decodes to the operation. -/
theorem placedWordIsTheNextOperation : Obligations.PlacedWordIsTheNextOperation := by
  intro s i hk hi
  have hwf := encode_wf Widths.standard i rfl hi
  have hrun : runWord (encode Widths.standard i) s = exec i s :=
    runWord_instr s _ i (hk.symm ▸ decode_encode Widths.standard i rfl hi)
  cases hword : encode Widths.standard i with
  | ev w =>
    rw [hword] at hwf hrun
    exact (step_withFetchWord s 40 w _ (portWordOf_ev w (of_decide_eq_true hwf))).trans hrun
  | cmd w =>
    rw [hword] at hwf hrun
    exact (step_withFetchWord s 72 w _ (portWordOf_cmd w (of_decide_eq_true hwf))).trans hrun

/-- Settles O6: each conjunct is a closed fact about one number. -/
theorem writtenOutWordsDecode : Obligations.WrittenOutWordsDecode := by
  unfold Obligations.WrittenOutWordsDecode
  decide

/-! ### Responses (R81, R200) -/

/-- A status code is one of 0 to 4, and 0 is that of `OK` alone (R200). -/
theorem statusCode_le (st : Status) : (statusCode st).toNat ≤ 4 := by cases st <;> decide

theorem statusCode_eq_zero_iff (st : Status) : (statusCode st).toNat = 0 ↔ st = .ok := by cases st <;> decide

theorem packRsp_wellCoded (st : Status) (d : DataWord) (h : st ≠ .ok → d = 0) : rspWellCoded (packRsp st d) := by
  rw [rspWellCoded, packRsp_toNat, field_div _ _ _ d.isLt, field_mod _ _ _ d.isLt]
  refine ⟨statusCode_le st, fun hcode => ?_⟩
  rw [h (mt (statusCode_eq_zero_iff st).2 hcode)]
  rfl

/-- Every response is well coded, and the responses of an earlier moment stand first. -/
def WellCodedSince (earlier : List RspWord) (s : State) : Prop :=
  (∀ r ∈ s.responses, rspWellCoded r) ∧ earlier <+: s.responses

theorem wellCodedSince_of_append {earlier : List RspWord} {s t : State} (hs : WellCodedSince earlier s) (st : Status)
    (d : DataWord) (hd : st ≠ .ok → d = 0) (ht : t.responses = s.responses ++ [packRsp st d]) :
    WellCodedSince earlier t := by
  obtain ⟨hcoded, hprefix⟩ := hs
  rw [WellCodedSince, ht, List.forall_mem_append, List.forall_mem_singleton]
  exact ⟨⟨hcoded, packRsp_wellCoded st d hd⟩, hprefix.trans (List.prefix_append _ _)⟩

theorem exec_wellCodedSince {earlier : List RspWord} (i : Instr) (s t : State) (hs : WellCodedSince earlier s)
    (h : exec i s = .next t) : WellCodedSince earlier t := by
  have ok {d : DataWord} : Status.ok ≠ .ok → d = 0 := fun hne => absurd rfl hne
  rcases exec_result i s t h with
    ⟨ts, rfl, rfl⟩ | ⟨ts, rfl, rfl⟩ | ⟨rfl, rfl⟩ | ⟨st, d, _, rfl, hd⟩ | ⟨rfl, rfl⟩ | ⟨now, tmo, rfl, rfl⟩
  · rwa [WellCodedSince, edge_responses]
  · rwa [WellCodedSince, edge_responses]
  · exact wellCodedSince_of_append hs .ok _ ok rfl
  · exact wellCodedSince_of_append hs st d hd rfl
  · exact wellCodedSince_of_append hs .ok _ ok rfl
  · exact wellCodedSince_of_append hs .ok _ ok rfl

/-- Settles O18: `WellCodedSince` the responses before the step is kept by every operation and by the answer to a reserved
command. -/
theorem everyResponseIsWellCoded : Obligations.EveryResponseIsWellCoded := fun s t hs hst =>
  step_keeps (WellCodedSince s.responses) (fun _ _ hu => hu)
    (fun _ hu => wellCodedSince_of_append hu .badOperation 0 (fun _ => rfl) rfl)
    (fun i u v _ hu he => exec_wellCodedSince i u v hu he) s t ⟨hs, List.prefix_rfl⟩ hst

/-! ### The frame as a bit list (R72, R74, R91) -/

theorem msbFirst_length (v n : Nat) : (msbFirst v n).length = n := by
  induction n with
  | zero => rfl
  | succ n ih => rw [msbFirst, List.length_cons, ih]

/-- A number's upper bits, then its lower ones, are its bits. -/
theorem msbFirst_append (v m n : Nat) : msbFirst (v / 2 ^ n) m ++ msbFirst v n = msbFirst v (m + n) := by
  induction m with
  | zero => rw [Nat.zero_add]; rfl
  | succ m ih => rw [msbFirst, List.cons_append, ih, Nat.testBit_div_two_pow, Nat.succ_add]; rfl

theorem bitsValue_append_singleton (bits : List Bool) (b : Bool) :
    bitsValue (bits ++ [b]) = 2 * bitsValue bits + b.toNat := by
  simp [bitsValue]

/-- Writing `n` bits and reading them back is the number modulo `2^n` (R53). -/
theorem bitsValue_msbFirst (v n : Nat) : bitsValue (msbFirst v n) = v % 2 ^ n := by
  induction n generalizing v with
  | zero => rw [Nat.pow_zero, Nat.mod_one]; rfl
  | succ n ih =>
    obtain ⟨b, u, rfl⟩ : ∃ (b : Bool) (u : Nat), v = 2 * u + b.toNat :=
      ⟨v.testBit 0, v / 2, by rw [Nat.toNat_testBit]; omega⟩
    have hb := b.toNat_lt
    have hupper : (2 * u + b.toNat) / 2 = u := by omega
    have hlast : (2 * u + b.toNat) % 2 = b.toNat := by omega
    rw [msbFirst_shift, bitsValue_append_singleton, ih, Nat.pow_succ', Nat.mod_mul, hupper, hlast, Nat.add_comm]

/-- A group with its parity bit has even parity (R74). -/
theorem parityOf_append_parity (bits : List Bool) : parityOf (bits ++ [parityOf bits]) = false := by
  rw [parityOf_append_singleton, parityWith, Bool.xor_self]

theorem firstGroupBits_length (p : Profile) (data : Nat) : (firstGroupBits p data).length = 9 := msbFirst_length _ _

theorem secondGroupBits_length (p : Profile) (data : Nat) : (secondGroupBits p data).length = p.secondGroup :=
  msbFirst_length _ _

theorem firstGroupBits_append_secondGroupBits (p : Profile) (data : Nat) :
    firstGroupBits p data ++ secondGroupBits p data = msbFirst data p.dataBits := msbFirst_append _ _ _

/-- `data = (control << N) | payload` has `D` bits (R91). -/
theorem frameData_lt (p : Profile) (payload control : Nat) (hpayload : payload < 2 ^ p.payloadWidth)
    (hcontrol : control < 2 ^ (p.dataBits - p.payloadWidth)) : frameData p payload control < 2 ^ p.dataBits := by
  rw [frameData, ← Nat.sub_add_cancel (payloadWidth_le_dataBits p), Nat.pow_add, Nat.mul_comm]
  exact Nat.mul_add_lt_mul_of_lt_of_lt hcontrol hpayload

section
variable (p : Profile) (data : Nat)

theorem frameBitList_length : (frameBitList p data).length = p.pulses := by
  simp only [frameBitList, List.length_append, List.length_cons, List.length_nil, firstGroupBits_length,
    secondGroupBits_length, Profile.pulses, dataBits_eq]
  omega

theorem frameBitList_take_firstGroup : (frameBitList p data).take 9 = firstGroupBits p data :=
  List.take_left' (firstGroupBits_length p data)

theorem frameBitList_eq_groups : frameBitList p data =
    (firstGroupBits p data ++ [parityOf (firstGroupBits p data)]) ++
      (secondGroupBits p data ++ [parityOf (secondGroupBits p data)]) :=
  List.append_cons _ _ _

theorem firstGroup_withParity_length :
    (firstGroupBits p data ++ [parityOf (firstGroupBits p data)]).length = 10 := by
  rw [List.length_append, firstGroupBits_length]; rfl

theorem frameBitList_take_withParity :
    (frameBitList p data).take 10 = firstGroupBits p data ++ [parityOf (firstGroupBits p data)] := by
  rw [frameBitList_eq_groups, List.take_left' (firstGroup_withParity_length p data)]

theorem frameBitList_drop_withParity :
    (frameBitList p data).drop 10 = secondGroupBits p data ++ [parityOf (secondGroupBits p data)] := by
  rw [frameBitList_eq_groups, List.drop_left' (firstGroup_withParity_length p data)]

end

/-- Settles O7: the two groups together are the bits of the data word, and each is followed by its parity. -/
theorem frameBitListCarriesDataWithEvenParity : Obligations.FrameBitListCarriesDataWithEvenParity := by
  intro p payload control hpayload hcontrol bits
  have hbits : bits = frameBitList p (frameData p payload control) := rfl
  have hdata := frameData_lt p payload control hpayload hcontrol
  rw [hbits, frameBitList_take_firstGroup, frameBitList_take_withParity, frameBitList_drop_withParity,
    List.take_left' (secondGroupBits_length p _), firstGroupBits_append_secondGroupBits, bitsValue_msbFirst,
    Nat.mod_eq_of_lt hdata]
  exact ⟨frameBitList_length p _, rfl, parityOf_append_parity _, parityOf_append_parity _⟩

/-! ### The payload of a temperature (R91, R153) -/

/-- The temperature in quantisation steps above `LOW_C`, exact: the number that R91 rounds. -/
def stepsAboveLow (p : Profile) (t : Rat) : Rat :=
  (t - (p.lowC : Rat)) * (p.maxPayload : Rat) / ((p.highC : Rat) - (p.lowC : Rat))

theorem payloadFor_eq_round (p : Profile) (t : Rat) : payloadFor p t = (round (stepsAboveLow p t)).toNat := by
  rw [round_eq]
  rfl

theorem maxPayload_cast (p : Profile) : (p.maxPayload : Rat) = (2 : Rat) ^ p.payloadWidth - 1 := by
  rw [Profile.maxPayload, Nat.cast_pred (Nat.two_pow_pos _), Nat.cast_pow, Nat.cast_ofNat]

theorem maxPayload_pos (p : Profile) : (0 : Rat) < p.maxPayload := by
  cases p <;> norm_num [Profile.maxPayload, Profile.payloadWidth]

theorem range_pos (p : Profile) : (0 : Rat) < (p.highC : Rat) - (p.lowC : Rat) := by
  cases p <;> norm_num [Profile.highC, Profile.lowC]

section
variable (p : Profile) (t : Rat) (hlow : (p.lowC : Rat) ≤ t) (hhigh : t ≤ (p.highC : Rat))

include hlow in
theorem stepsAboveLow_nonneg : 0 ≤ stepsAboveLow p t :=
  div_nonneg (mul_nonneg (sub_nonneg.2 hlow) (maxPayload_pos p).le) (range_pos p).le

include hhigh in
theorem stepsAboveLow_le : stepsAboveLow p t ≤ p.maxPayload := by
  rw [stepsAboveLow, div_le_iff₀ (range_pos p), mul_comm]
  exact mul_le_mul_of_nonneg_left (sub_le_sub_right hhigh _) (maxPayload_pos p).le

include hlow in
theorem payloadFor_cast : ((payloadFor p t : Nat) : Rat) = (round (stepsAboveLow p t) : Int) := by
  have hround : 0 ≤ round (stepsAboveLow p t) := by
    rw [round_eq]
    exact Int.floor_nonneg.2 (add_nonneg (stepsAboveLow_nonneg p t hlow) (by norm_num))
  rw [payloadFor_eq_round, ← Int.cast_natCast, Int.toNat_of_nonneg hround]

include hlow hhigh in
theorem payloadFor_lt : payloadFor p t < 2 ^ p.payloadWidth := by
  have hround := round_le_add_half (stepsAboveLow p t)
  have hmax := stepsAboveLow_le p t hhigh
  rw [← payloadFor_cast p t hlow] at hround
  rw [maxPayload_cast] at hmax
  have hlt : ((payloadFor p t : Nat) : Rat) < (2 : Rat) ^ p.payloadWidth := by linarith
  exact_mod_cast hlt

/-- The error of the round trip is the rounding error, in quantisation steps (R91, R153). -/
theorem tempOf_sub (n : Nat) : tempOf p n - t =
    ((n : Rat) - stepsAboveLow p t) * (((p.highC : Rat) - (p.lowC : Rat)) / (p.maxPayload : Rat)) := by
  have hM := (maxPayload_pos p).ne'
  have hR := (range_pos p).ne'
  rw [tempOf, stepsAboveLow]
  field_simp
  ring

end

/-- Settles O44: rounding is wrong by half a step at most, and `tempOf` is linear. -/
theorem encodedTemperatureDecodesWithinHalfAStep : Obligations.EncodedTemperatureDecodesWithinHalfAStep := by
  intro p t hlow hhigh
  refine ⟨payloadFor_lt p t hlow hhigh, ?_⟩
  have hstep : 0 < ((p.highC : Rat) - (p.lowC : Rat)) / (p.maxPayload : Rat) :=
    div_pos (range_pos p) (maxPayload_pos p)
  have hround : |((payloadFor p t : Nat) : Rat) - stepsAboveLow p t| ≤ 1 / 2 := by
    rw [payloadFor_cast p t hlow, abs_sub_comm]
    exact abs_sub_round _
  rw [← maxPayload_cast, tempOf_sub, abs_mul, abs_of_pos hstep, ← mul_assoc]
  exact mul_le_of_le_one_left hstep.le (by linarith)

end Sys2Proof.Proofs

/-! The statements of 40_bit_window.md: what moves the threshold (R105), and where it settles when every start pulse has the
same width (R101, R103). -/

namespace Sys2Proof.Proofs

open Sys2Proof.Machine

/-! ### Only a start pulse moves the threshold (R105) -/

/-- Data pulses and parity pulses, matching or not, keep the threshold. -/
theorem samplePulse_thresholdMicros (w ts : Nat) (s : State) (h : s.phase ≠ .startDetected) :
    (samplePulse w ts s).thresholdMicros = s.thresholdMicros := by
  rcases samplePulse_cases w ts s with
    ⟨_, he⟩ | ⟨hp, _⟩ | ⟨_, he⟩ | ⟨_, _, he⟩ | ⟨_, _, _, he⟩ | ⟨_, _, _, he⟩
  case inr.inl => exact absurd hp h
  all_goals simp [he]

theorem samplePulse_startDetected (w ts : Nat) (s : State) (h : s.phase = .startDetected) :
    samplePulse w ts s = takeStartPulse w s := by
  simp [samplePulse, h]

/-- An edge that moves the threshold ends the start pulse of a frame. -/
theorem edge_of_thresholdMicros_ne (l : Level) (ts : Nat) (s : State)
    (h : (edge l ts s).thresholdMicros ≠ s.thresholdMicros) :
    l = .rising ∧ s.inFrameAt ts ∧ s.phase = .startDetected ∧
      edge l ts s = takeStartPulse (interval s.cfg.widths ts s.lastEdgeTimestamp) { s with lastEdgeTimestamp := ts } := by
  rcases edge_result l ts s with ⟨_, he⟩ | ⟨_, _, he⟩ | ⟨_, he⟩ | ⟨_, _, he⟩ | ⟨hin, hl, he⟩ <;> rw [he] at h ⊢
  case inr.inr.inr.inr =>
    have hp : s.phase = .startDetected :=
      not_imp_comm.1 (samplePulse_thresholdMicros _ ts { s with lastEdgeTimestamp := ts }) h
    exact ⟨hl, hin, hp, samplePulse_startDetected _ _ _ hp⟩
  all_goals exact absurd rfl h

/-- Settles O34: no consumer operation writes the threshold, and of the edges only the end of a start pulse does. -/
theorem onlyAStartPulseMovesTheThreshold : Obligations.OnlyAStartPulseMovesTheThreshold := by
  intro i s t h hne
  cases hi : i.port with
  | consumer => exact absurd (exec_consumer_keeps_producerState i s t hi h).thresholdMicros hne
  | producer =>
    cases i with
    | edgeFall ts =>
      cases h
      obtain ⟨hl, _⟩ := edge_of_thresholdMicros_ne .falling ts s hne
      cases hl
    | edgeRise ts =>
      cases h
      obtain ⟨_, hin, hphase, he⟩ := edge_of_thresholdMicros_ne .rising ts s hne
      refine ⟨ts, rfl, hin, hphase, ?_, ?_⟩ <;> rw [he]
      · rfl
      · exact nextThreshold_eq _ _ _
    | _ => cases hi

/-! ### Constant start pulses (R101, R103 (c)) -/

/-- How far a threshold `t` lies below four thirds of the width `w`, in thirds. -/
def shortfall (w t : Nat) : Nat := 4 * w - 3 * t

section
variable {k : Widths} {w t : Nat} (hk : 11 ≤ k.ts) (hw : w ≤ 1000) (ht : 3 * t ≤ 4 * w)
include hk hw ht

/-- A threshold up to four thirds of the width stays below `2 ^ 11`, so nothing is taken off the sum. -/
theorem nextThreshold_eq_add : nextThreshold k w t = w + t / 4 := by
  have hpow : 2 ^ 11 ≤ 2 ^ k.ts := Nat.pow_le_pow_right (by decide) hk
  rw [nextThreshold_eq, Nat.mod_eq_of_lt (by omega)]

theorem nextThreshold_le_fourThirds : 3 * nextThreshold k w t ≤ 4 * w := by
  rw [nextThreshold_eq_add hk hw ht]
  omega

theorem le_nextThreshold : t ≤ nextThreshold k w t := by
  rw [nextThreshold_eq_add hk hw ht]
  omega

/-- A start pulse quarters the shortfall, but for the two bits that the shift drops. -/
theorem shortfall_nextThreshold_le : 4 * shortfall w (nextThreshold k w t) ≤ shortfall w t + 9 := by
  rw [nextThreshold_eq_add hk hw ht, shortfall, shortfall]
  omega

theorem nextThreshold_of_shortfall_le (hs : shortfall w t ≤ 3) : nextThreshold k w t = t := by
  rw [nextThreshold_eq_add hk hw ht]
  unfold shortfall at hs
  omega

end

section
variable {k : Widths} {w : Nat} (hk : 11 ≤ k.ts) (hw : w ≤ 1000)
include hk hw

theorem iterate_nextThreshold_le_fourThirds (n : Nat) : 3 * (nextThreshold k w)^[n] 0 ≤ 4 * w := by
  induction n with
  | zero => exact Nat.zero_le _
  | succ n ih =>
    rw [Function.iterate_succ_apply']
    exact nextThreshold_le_fourThirds hk hw ih

/-- After `n` start pulses the shortfall is at most `3 + (4 * w - 3) / 4 ^ n`. -/
theorem shortfall_iterate_le (n : Nat) :
    4 ^ n * shortfall w ((nextThreshold k w)^[n] 0) + 3 ≤ 4 * w + 3 * 4 ^ n := by
  induction n with
  | zero => simp [shortfall]
  | succ n ih =>
    rw [Function.iterate_succ_apply', pow_succ, mul_assoc]
    have hquarter := Nat.mul_le_mul_left (4 ^ n)
      (shortfall_nextThreshold_le hk hw (iterate_nextThreshold_le_fourThirds hk hw n))
    rw [mul_add] at hquarter
    omega

theorem shortfall_iterate_six : shortfall w ((nextThreshold k w)^[6] 0) ≤ 3 := by
  have h := shortfall_iterate_le hk hw 6
  omega

end

/-- Settles O35: four thirds of the width is never passed, so no pulse lowers the threshold; after six pulses the
shortfall is at most 3, and there the threshold stands still. -/
theorem thresholdSettlesForConstantStartPulses : Obligations.ThresholdSettlesForConstantStartPulses := by
  intro k w hk hw
  have hbelow := iterate_nextThreshold_le_fourThirds hk hw
  have hsix := shortfall_iterate_six hk hw
  refine ⟨fun n => ?_, fun n hn => ⟨?_, ?_, hbelow 6⟩⟩
  · rw [Function.iterate_succ_apply']
    exact le_nextThreshold hk hw (hbelow n)
  · obtain ⟨m, rfl⟩ := Nat.exists_eq_add_of_le' hn
    rw [Function.iterate_add_apply]
    exact Function.iterate_fixed (nextThreshold_of_shortfall_le hk hw (hbelow 6) hsix) m
  · unfold shortfall at hsix
    omega

end Sys2Proof.Proofs

/-! The statements of 41_frame_assembler.md: what each edge does in each phase (R113 to R123), what it leaves unchanged
(R110, R111), when the frame buffer and the phase change (R127, R129), and whole frames from the first edge to the last
(R129 (a), (b), (d)). -/

namespace Sys2Proof.Proofs

open Sys2Proof.Machine

/-! ### A pulse, by the phase that it finds (R116 to R123) -/

/-- No frame is in progress: a pulse is ignored, and only a start condition opens the next frame (R116, R124). -/
def OutsideFrame (s : State) : Prop := s.phase = .idle ∨ s.phase = .frameComplete ∨ s.phase = .frameError

section
variable (w ts : Nat) (s : State)

theorem samplePulse_outsideFrame (h : OutsideFrame s) : samplePulse w ts s = s := by
  rcases h with h | h | h <;> simp [samplePulse, h]

theorem samplePulse_receiving (h : s.phase = .receiving) : samplePulse w ts s = takeDataPulse w s := by
  simp [samplePulse, h]

theorem samplePulse_mismatch (h : s.phase = .parityCheck)
    (hbit : classify w s.thresholdMicros ≠ s.parityAccumulator) : samplePulse w ts s = enterFrameError s := by
  simp [samplePulse, takeParityPulse, h, hbit]

theorem samplePulse_finalMatch (h : s.phase = .parityCheck)
    (hbit : classify w s.thresholdMicros = s.parityAccumulator) (hpos : s.bitPosition = s.cfg.profile.dataBits) :
    samplePulse w ts s = completeFrame ts s := by
  simp [samplePulse, takeParityPulse, h, hbit, (isFinalPosition_iff _ _).2 hpos]

theorem samplePulse_firstMatch (h : s.phase = .parityCheck)
    (hbit : classify w s.thresholdMicros = s.parityAccumulator) (hpos : s.bitPosition ≠ s.cfg.profile.dataBits) :
    samplePulse w ts s = passFirstParity s := by
  simp [samplePulse, takeParityPulse, h, hbit, isFinalPosition_iff, hpos]

end

/-- A rising edge without a gap does what its pulse does. -/
theorem exec_edgeRise_of_samplePulse {ts : Nat} {s t : State} (hin : s.inFrameAt ts)
    (h : samplePulse (interval s.cfg.widths ts s.lastEdgeTimestamp) ts { s with lastEdgeTimestamp := ts } = t) :
    exec (.edgeRise ts) s = .next t := by
  rw [exec_edgeRise, edge_rising_inFrame ts s hin, h]

/-! ### Edges outside a frame (R113 to R116) -/

/-- After `BEGIN` there is no earlier edge, so the next one has no interval to be a gap (R113). -/
theorem edge_after_begin (l : Level) (ts : Nat) (s : State) :
    edge l ts (respond 0 (startSession s)) = recordFirstEdge ts (respond 0 (startSession s)) :=
  edge_first l ts _ rfl rfl

/-- Settles O20: `edge_first` for any state, which is the state after `BEGIN` too; reset is not armed. -/
theorem firstEdgeIsRecordedAndDiscarded : Obligations.FirstEdgeIsRecordedAndDiscarded := by
  refine ⟨fun s ts harmed hvalid => ?_, fun s ts => ⟨_, _, rfl, ?_, rfl, ?_⟩, fun c ts => ⟨_, _, rfl, ?_, rfl, ?_⟩⟩
  · rw [exec_edgeFall, exec_edgeRise, edge_first .falling ts s harmed hvalid, edge_first .rising ts s harmed hvalid]
    exact ⟨rfl, rfl⟩
  · rw [edge_after_begin]; rfl
  · rw [edge_after_begin]; rfl
  · rw [edge_unarmed _ _ _ rfl]; rfl
  · rw [edge_unarmed _ _ _ rfl]; rfl

/-- Settles O21: the gap is tested before the level and the phase (R112). -/
theorem startConditionFromEveryPhase : Obligations.StartConditionFromEveryPhase := by
  intro s ts harmed hvalid hgap t
  rw [exec_edgeFall, exec_edgeRise, edge_gap .falling ts s ⟨harmed, hvalid, hgap⟩,
    edge_gap .rising ts s ⟨harmed, hvalid, hgap⟩]
  exact ⟨rfl, rfl⟩

/-- Settles O22: a falling edge samples no pulse. -/
theorem fallingEdgeWithoutGapOnlyMovesTheTimestamp : Obligations.FallingEdgeWithoutGapOnlyMovesTheTimestamp := by
  intro s ts harmed hvalid hin
  rw [exec_edgeFall, edge_falling_inFrame ts s ⟨harmed, hvalid, hin⟩]

/-- Settles O23: without a gap the edge samples the pulse, which is ignored outside a frame. -/
theorem pulseOutsideAFrameIsIgnored : Obligations.PulseOutsideAFrameIsIgnored := by
  intro s ts harmed hvalid hin hphase
  exact exec_edgeRise_of_samplePulse ⟨harmed, hvalid, hin⟩ (samplePulse_outsideFrame _ _ _ hphase)

/-! ### The pulses of a frame (R117 to R123) -/

/-- Settles O24: the shift by two of R101 is a division by four. -/
theorem startPulseCalibratesTheThreshold : Obligations.StartPulseCalibratesTheThreshold := by
  intro s ts hin hphase
  rw [← nextThreshold_eq]
  exact exec_edgeRise_of_samplePulse hin (samplePulse_startDetected _ _ _ hphase)

theorem shiftIn_eq_ofNat (p : Profile) (a : FrameBits) (b : Bool) :
    shiftIn p a b = BitVec.ofNat 14 ((2 * a.toNat + b.toNat) % 2 ^ p.dataBits) := by
  rw [← shiftIn_toNat, BitVec.ofNat_toNat, BitVec.setWidth_eq]

/-- A data pulse below the last position, with the rules' numbers for each register (R118, R119). -/
theorem takeDataPulse_eq (w : Nat) (s : State) (below : s.bitPosition + 1 ≤ s.cfg.profile.dataBits) :
    takeDataPulse w s = { s with
      accumulator := BitVec.ofNat 14
        ((2 * s.accumulator.toNat + (decide (w < s.thresholdMicros)).toNat) % 2 ^ s.cfg.profile.dataBits)
      parityAccumulator := s.parityAccumulator ^^ decide (w < s.thresholdMicros)
      bitPosition := s.bitPosition + 1
      positionBound := below
      phase := if s.bitPosition + 1 = 9 ∨ s.bitPosition + 1 = s.cfg.profile.dataBits then .parityCheck
        else .receiving } := by
  have hnext := nextPosition_of_lt s.cfg.profile s.bitPosition below
  simp only [takeDataPulse, shiftIn_eq_ofNat, hnext, isParityPosition_iff]
  rfl

/-- Settles O25: `takeDataPulse_eq` is the pulse; the invariants leave room for one more bit (R42 (b), (g)). -/
theorem dataPulseShiftsOneBit : Obligations.DataPulseShiftsOneBit := by
  intro s ts hin hphase b position
  refine ⟨fun below => ?_, fun hinv => ?_⟩
  · exact exec_edgeRise_of_samplePulse hin ((samplePulse_receiving _ _ { s with lastEdgeTimestamp := ts } hphase).trans
      (takeDataPulse_eq _ { s with lastEdgeTimestamp := ts } below))
  · have hpos : position ≤ s.cfg.profile.dataBits := hinv.receivingPosition hphase
    obtain ⟨_, hlt⟩ := shiftIn_toNat_of_receiving hinv hphase b
    exact ⟨hpos, hlt.trans_le (Nat.pow_le_pow_right two_pos hpos)⟩

/-- Settles O26: `G1` is not the final position. -/
theorem firstParityMatchOpensTheSecondGroup : Obligations.FirstParityMatchOpensTheSecondGroup := by
  intro s ts hin hphase hpos hbit
  have hfirst : s.bitPosition ≠ s.cfg.profile.dataBits := hpos ▸ (firstGroup_lt s.cfg.profile).ne
  exact exec_edgeRise_of_samplePulse hin (samplePulse_firstMatch _ _ _ hphase hbit hfirst)

/-- Settles O27: `completeFrame` is the publish, the heartbeat and the new phase in one step. -/
theorem finalParityMatchPublishesTheFrame : Obligations.FinalParityMatchPublishesTheFrame := by
  intro s ts hin hphase hpos hbit
  exact exec_edgeRise_of_samplePulse hin (samplePulse_finalMatch _ _ _ hphase hbit hpos)

/-- Settles O28: the comparison comes before the position is looked at. -/
theorem parityMismatchPublishesAnInvalidFrame : Obligations.ParityMismatchPublishesAnInvalidFrame := by
  intro s ts hin hphase hbit
  exact exec_edgeRise_of_samplePulse hin (samplePulse_mismatch _ _ _ hphase hbit)

/-! ### What an edge leaves unchanged (R110, R111) -/

/-- Settles O29: a falling edge is ignored, recorded as the first one, a start condition, or moves the timestamp. -/
theorem fallingEdgeFrame : Obligations.FallingEdgeFrame := by
  intro s t ts h
  cases h
  rcases edge_result .falling ts s with ⟨_, he⟩ | ⟨harmed, _, he⟩ | ⟨hgap, he⟩ | ⟨hin, _, he⟩ | ⟨_, hl, _⟩
  · simp [he]
  · simp [he, harmed]
  · have ⟨harmed, hvalid, _⟩ := hgap
    simp [he, hgap, harmed, hvalid]
  · obtain ⟨harmed, hvalid, _⟩ := hin
    simp [he, harmed, hvalid]
  · cases hl

/-- What every rising edge keeps: all that is the consumer's, the configuration and the queues. -/
structure ConsumerStateKept (s t : State) : Prop where
  cfg : t.cfg = s.cfg
  armed : t.armed = s.armed
  repValid : t.repValid = s.repValid
  lastReportedPayload : t.lastReportedPayload = s.lastReportedPayload
  lastReportedTimestamp : t.lastReportedTimestamp = s.lastReportedTimestamp
  pending : t.pending = s.pending
  responses : t.responses = s.responses

/-- What is as it was unless a `publish` happens: the visible entry's address, the buffer and the heartbeat. -/
structure OutputKept (s t : State) : Prop where
  buf : t.buf = s.buf
  visibleIdx : t.visibleIdx = s.visibleIdx
  hbValid : t.hbValid = s.hbValid
  lastHeartbeatTimestamp : t.lastHeartbeatTimestamp = s.lastHeartbeatTimestamp

theorem samplePulse_keeps_consumerState (w ts : Nat) (s : State) : ConsumerStateKept s (samplePulse w ts s) := by
  rcases samplePulse_cases w ts s with
    ⟨_, h⟩ | ⟨_, h⟩ | ⟨_, h⟩ | ⟨_, _, h⟩ | ⟨_, _, _, h⟩ | ⟨_, _, _, h⟩ <;> rw [h]
  all_goals exact ⟨rfl, rfl, rfl, rfl, rfl, rfl, rfl⟩

theorem edge_keeps_consumerState (l : Level) (ts : Nat) (s : State) : ConsumerStateKept s (edge l ts s) := by
  rcases edge_result l ts s with ⟨_, h⟩ | ⟨_, _, h⟩ | ⟨_, h⟩ | ⟨_, _, h⟩ | ⟨_, _, h⟩ <;> rw [h]
  case inr.inr.inr.inr => exact { samplePulse_keeps_consumerState _ ts { s with lastEdgeTimestamp := ts } with }
  all_goals exact ⟨rfl, rfl, rfl, rfl, rfl, rfl, rfl⟩

/-- The parity pulse that ends a frame: it enters `FRAME_ERROR`, or at the final position completes the frame. -/
def EndsFrame (ts : Nat) (s t : State) : Prop :=
  s.phase = .parityCheck ∧
    (t = enterFrameError s ∨ s.bitPosition = s.cfg.profile.dataBits ∧ t = completeFrame ts s)

/-- A pulse leaves the output alone, or it ends a frame. -/
theorem samplePulse_outputKept_or_endsFrame (w ts : Nat) (s : State) :
    OutputKept s (samplePulse w ts s) ∨ EndsFrame ts s (samplePulse w ts s) := by
  rcases samplePulse_cases w ts s with
    ⟨_, h⟩ | ⟨_, h⟩ | ⟨_, h⟩ | ⟨hp, _, h⟩ | ⟨hp, _, hpos, h⟩ | ⟨_, _, _, h⟩ <;> rw [h]
  case inr.inr.inr.inl => exact .inr ⟨hp, .inl rfl⟩
  case inr.inr.inr.inr.inl => exact .inr ⟨hp, .inr ⟨hpos, rfl⟩⟩
  all_goals exact .inl ⟨rfl, rfl, rfl, rfl⟩

/-- An edge leaves the output alone, or it is a rising one that ends a frame. -/
theorem edge_outputKept_or_endsFrame (l : Level) (ts : Nat) (s : State) :
    OutputKept s (edge l ts s) ∨
      l = .rising ∧ s.inFrameAt ts ∧ EndsFrame ts { s with lastEdgeTimestamp := ts } (edge l ts s) := by
  rcases edge_result l ts s with ⟨_, h⟩ | ⟨_, _, h⟩ | ⟨_, h⟩ | ⟨_, _, h⟩ | ⟨hin, hl, h⟩ <;> rw [h]
  case inr.inr.inr.inr =>
    rcases samplePulse_outputKept_or_endsFrame _ ts { s with lastEdgeTimestamp := ts } with kept | ends
    · exact .inl { kept with }
    · exact .inr ⟨hl, hin, ends⟩
  all_goals exact .inl ⟨rfl, rfl, rfl, rfl⟩

/-- A frame that ends writes the hidden entry and no other (R51, R141). -/
theorem EndsFrame.read_other {ts : Nat} {s t : State} (h : EndsFrame ts s t) {a : BitVec 1} (ha : a ≠ s.writeIdx) :
    t.buf.read a = s.buf.read a := by
  obtain ⟨_, rfl | ⟨_, rfl⟩⟩ := h
  all_goals exact Memory.read_write_other _ _ _ _ ha

/-- Settles O30: what no edge writes, then the output, which only the end of a frame writes, and the threshold. -/
theorem risingEdgeFrame : Obligations.RisingEdgeFrame := by
  intro s t ts h
  cases h
  have kept := edge_keeps_consumerState .rising ts s
  refine ⟨kept.cfg, kept.armed, kept.repValid, kept.lastReportedPayload, kept.lastReportedTimestamp, kept.pending,
    kept.responses, ?_, ?_, ?_⟩
  · intro a ha
    rcases edge_outputKept_or_endsFrame .rising ts s with output | ⟨_, _, ends⟩
    · rw [output.buf]
    · exact ends.read_other ha
  · intro hphase
    rcases edge_outputKept_or_endsFrame .rising ts s with output | ⟨_, _, hcheck, _⟩
    · exact ⟨fun a => congrArg (·.read a) output.buf, output.visibleIdx, output.hbValid, output.lastHeartbeatTimestamp⟩
    · exact absurd hcheck hphase
  · intro hphase
    by_contra hne
    obtain ⟨_, _, hstart, _⟩ := edge_of_thresholdMicros_ne .rising ts s hne
    exact hphase hstart

/-! ### When the frame buffer changes (R129 (e), R141, R142) -/

/-- An operation that touches the frame buffer is a rising edge that ends a frame. -/
theorem exec_endsFrame_of_output_ne (i : Instr) (s t : State) (h : exec i s = .next t)
    (hne : t.buf ≠ s.buf ∨ t.visibleIdx ≠ s.visibleIdx) :
    ∃ ts, i = .edgeRise ts ∧ s.inFrameAt ts ∧ EndsFrame ts { s with lastEdgeTimestamp := ts } t := by
  cases hi : i.port with
  | consumer =>
    have kept := exec_consumer_keeps_producerState i s t hi h
    exact absurd hne (not_or.2 ⟨not_not_intro kept.buf, not_not_intro kept.visibleIdx⟩)
  | producer =>
    obtain ⟨l, ts, hop, rfl⟩ : ∃ l ts, (l = .rising → i = .edgeRise ts) ∧ t = edge l ts s := by
      cases i with
      | edgeFall ts => exact ⟨.falling, ts, nofun, (Host.Outcome.next.inj h).symm⟩
      | edgeRise ts => exact ⟨.rising, ts, fun _ => rfl, (Host.Outcome.next.inj h).symm⟩
      | _ => cases hi
    rcases edge_outputKept_or_endsFrame l ts s with kept | ⟨hl, hin, ends⟩
    · exact absurd hne (not_or.2 ⟨not_not_intro kept.buf, not_not_intro kept.visibleIdx⟩)
    · exact ⟨ts, hop hl, hin, ends⟩

/-- Settles O31: the operation ends a frame, and each of the two ends publishes the accumulator. -/
theorem publishHappensOnlyInParityCheck : Obligations.PublishHappensOnlyInParityCheck := by
  intro i s t h hne
  obtain ⟨ts, hi, hin, hphase, hend⟩ := exec_endsFrame_of_output_ne i s t h hne
  obtain rfl | ⟨hpos, rfl⟩ := hend
  · have shown := enterFrameError_visible { s with lastEdgeTimestamp := ts }
    exact ⟨ts, hi, hin, hphase, rfl, congrArg RawFrame.bits shown, .inr ⟨rfl, congrArg RawFrame.valid shown⟩⟩
  · have shown := completeFrame_visible ts { s with lastEdgeTimestamp := ts }
    exact ⟨ts, hi, hin, hphase, rfl, congrArg RawFrame.bits shown, .inl ⟨rfl, congrArg RawFrame.valid shown, hpos⟩⟩

/-! ### When the phase changes (R124, R127) -/

/-- The moves of R127 that a pulse makes. -/
def PulseMoves (old new : Phase) : Prop :=
  (old = .startDetected ∧ new = .receiving) ∨ (old = .receiving ∧ new = .parityCheck) ∨
    (old = .parityCheck ∧ new ≠ .idle ∧ new ≠ .startDetected)

theorem samplePulse_phase (w ts : Nat) (s : State) (hne : (samplePulse w ts s).phase ≠ s.phase) :
    PulseMoves s.phase (samplePulse w ts s).phase := by
  rcases samplePulse_cases w ts s with
    ⟨_, h⟩ | ⟨hp, h⟩ | ⟨hp, h⟩ | ⟨hp, _, h⟩ | ⟨hp, _, _, h⟩ | ⟨hp, _, _, h⟩ <;> rw [h] at hne ⊢
  · exact absurd rfl hne
  · exact .inl ⟨hp, rfl⟩
  · refine .inr (.inl ⟨hp, ?_⟩)
    rw [takeDataPulse_phase, hp] at hne
    rw [takeDataPulse_phase]
    exact if_pos (by_contra fun hno => hne (if_neg hno))
  all_goals exact .inr (.inr ⟨hp, nofun, nofun⟩)

theorem edge_phase (l : Level) (ts : Nat) (s : State) (hne : (edge l ts s).phase ≠ s.phase) :
    (s.startsFrameAt ts ∧ (edge l ts s).phase = .startDetected) ∨
      l = .rising ∧ s.inFrameAt ts ∧ PulseMoves s.phase (edge l ts s).phase := by
  rcases edge_result l ts s with ⟨_, h⟩ | ⟨_, _, h⟩ | ⟨hgap, h⟩ | ⟨_, _, h⟩ | ⟨hin, hl, h⟩ <;> rw [h] at hne ⊢
  · exact absurd rfl hne
  · exact absurd rfl hne
  · exact .inl ⟨hgap, rfl⟩
  · exact absurd rfl hne
  · exact .inr ⟨hl, hin, samplePulse_phase _ ts { s with lastEdgeTimestamp := ts } hne⟩

/-- Settles O36: of the commands only a successful `BEGIN` writes the phase, and an edge moves it by `edge_phase`. -/
theorem phaseMovesOnlyAlongTheTransitionTable : Obligations.PhaseMovesOnlyAlongTheTransitionTable := by
  intro i s t h hne
  rcases exec_result i s t h with
    ⟨ts, rfl, rfl⟩ | ⟨ts, rfl, rfl⟩ | ⟨rfl, rfl⟩ | ⟨_, _, _, rfl, _⟩ | ⟨_, rfl⟩ | ⟨_, _, _, rfl⟩
  · rcases edge_phase .falling ts s hne with ⟨hgap, ht⟩ | ⟨hl, _⟩
    · exact .inl ⟨⟨ts, .inl rfl, hgap⟩, ht⟩
    · cases hl
  · rcases edge_phase .rising ts s hne with ⟨hgap, ht⟩ | ⟨_, hin, hmove⟩
    · exact .inl ⟨⟨ts, .inr rfl, hgap⟩, ht⟩
    · exact .inr (.inr ⟨ts, rfl, hin, hmove⟩)
  · exact .inr (.inl ⟨rfl, rfl⟩)
  all_goals exact absurd rfl hne

/-! ### One publish for each start condition (R129 (d)) -/

/-- A publish ends the frame. -/
theorem exec_outsideFrame_of_publish (i : Instr) (s t : State) (h : exec i s = .next t)
    (hne : t.visibleIdx ≠ s.visibleIdx) : OutsideFrame t := by
  obtain ⟨ts, _, _, _, hend⟩ := exec_endsFrame_of_output_ne i s t h (.inr hne)
  obtain rfl | ⟨_, rfl⟩ := hend
  · exact .inr (.inr rfl)
  · exact .inr (.inl rfl)

/-- Outside a frame nothing publishes. -/
theorem exec_visibleIdx_of_outsideFrame (i : Instr) (s t : State) (h : exec i s = .next t) (hout : OutsideFrame s) :
    t.visibleIdx = s.visibleIdx := by
  by_contra hne
  obtain ⟨ts, _, _, hcheck, _⟩ := exec_endsFrame_of_output_ne i s t h (.inr hne)
  have hphase : s.phase = .parityCheck := hcheck
  simp [OutsideFrame, hphase] at hout

/-- Only a start condition opens a frame (R124). -/
theorem exec_stays_outsideFrame (i : Instr) (s t : State) (h : exec i s = .next t) (hout : OutsideFrame s)
    (hno : ¬ s.startsFrame i) : OutsideFrame t := by
  by_cases hsame : t.phase = s.phase
  · rwa [OutsideFrame, hsame]
  · rcases phaseMovesOnlyAlongTheTransitionTable i s t h hsame with
      ⟨hgap, _⟩ | ⟨_, hidle⟩ | ⟨_, _, _, ⟨hp, _⟩ | ⟨hp, _⟩ | ⟨hp, _⟩⟩
    · exact absurd hgap hno
    · exact .inl hidle
    all_goals simp [OutsideFrame, hp] at hout

theorem publishCount_of_outsideFrame (ops : List Instr) (s : State) (hout : OutsideFrame s)
    (hno : noStartCondition ops s) : publishCount ops s = 0 := by
  induction ops generalizing s with
  | nil => rfl
  | cons i rest ih =>
    obtain ⟨t, ht⟩ := exec_next i s
    obtain ⟨hi, hrest⟩ := hno
    exact (publishCount_cons_eq_zero i rest s t ht).2 ⟨exec_visibleIdx_of_outsideFrame i s t ht hout,
      ih t (exec_stays_outsideFrame i s t ht hout hi) (hrest t ht)⟩

/-- Settles O32: the first publish leaves the frame, and from there on nothing publishes before a start condition. -/
theorem atMostOnePublishPerStartCondition : Obligations.AtMostOnePublishPerStartCondition := by
  intro ops
  induction ops with
  | nil => exact fun _ _ => Nat.zero_le 1
  | cons i rest ih =>
    intro s hno
    obtain ⟨t, ht⟩ := exec_next i s
    obtain ⟨_, hrest⟩ := hno
    rw [publishCount_cons i rest s t ht]
    by_cases hsame : t.visibleIdx = s.visibleIdx
    · rw [if_pos hsame, Nat.zero_add]
      exact ih t (hrest t ht)
    · rw [if_neg hsame, publishCount_of_outsideFrame rest t (exec_outsideFrame_of_publish i s t ht hsame) (hrest t ht)]

end Sys2Proof.Proofs

/-! Whole frames (R129 (a), (b)): a train of pulses as a fold over the state, the two parity groups, and what a frame ends
with. -/

namespace Sys2Proof.Proofs

open Sys2Proof.Machine Sys2Proof.Laws

/-! ### A train of pulses (R70, R106) -/

/-- The time of the rising edge that ends the pulse, `(high, low)` after the last edge of the state. -/
def pulseEnd (s : State) (pulse : Nat × Nat) : Nat := pulseTrainEnd s.cfg.widths s.lastEdgeTimestamp [pulse]

/-- The state that samples the pulse: its end is the last edge. -/
def atPulseEnd (s : State) (pulse : Nat × Nat) : State := { s with lastEdgeTimestamp := pulseEnd s pulse }

/-- What the two edges of a pulse do, when neither ends a gap. -/
def afterPulse (s : State) (pulse : Nat × Nat) : State :=
  samplePulse pulse.2 (pulseEnd s pulse) (atPulseEnd s pulse)

/-- Both parts of the pulse are intervals inside a frame. -/
def InFramePulse (c : Config) (pulse : Nat × Nat) : Prop := inFrameInterval c pulse.1 ∧ inFrameInterval c pulse.2

theorem samplePulse_lastEdgeValid (w ts : Nat) (s : State) :
    (samplePulse w ts s).lastEdgeValid = s.lastEdgeValid := by
  rcases samplePulse_cases w ts s with
    ⟨_, h⟩ | ⟨_, h⟩ | ⟨_, h⟩ | ⟨_, _, h⟩ | ⟨_, _, _, h⟩ | ⟨_, _, _, h⟩ <;> rw [h] <;> rfl

theorem samplePulse_lastEdgeTimestamp (w ts : Nat) (s : State) :
    (samplePulse w ts s).lastEdgeTimestamp = s.lastEdgeTimestamp := by
  rcases samplePulse_cases w ts s with
    ⟨_, h⟩ | ⟨_, h⟩ | ⟨_, h⟩ | ⟨_, _, h⟩ | ⟨_, _, _, h⟩ | ⟨_, _, _, h⟩ <;> rw [h] <;> rfl

theorem afterPulse_cfg (s : State) (pulse : Nat × Nat) : (afterPulse s pulse).cfg = s.cfg := samplePulse_cfg _ _ _

theorem afterPulse_armed (s : State) (pulse : Nat × Nat) : (afterPulse s pulse).armed = s.armed :=
  (samplePulse_keeps_consumerState _ _ _).armed

theorem afterPulse_lastEdgeValid (s : State) (pulse : Nat × Nat) :
    (afterPulse s pulse).lastEdgeValid = s.lastEdgeValid := samplePulse_lastEdgeValid _ _ _

theorem afterPulse_lastEdgeTimestamp (s : State) (pulse : Nat × Nat) :
    (afterPulse s pulse).lastEdgeTimestamp = pulseEnd s pulse := samplePulse_lastEdgeTimestamp _ _ _

theorem foldl_afterPulse_lastEdgeTimestamp (pulses : List (Nat × Nat)) (s : State) :
    (pulses.foldl afterPulse s).lastEdgeTimestamp = pulseTrainEnd s.cfg.widths s.lastEdgeTimestamp pulses := by
  induction pulses generalizing s with
  | nil => rfl
  | cons pulse rest ih =>
    rw [List.foldl_cons, ih, afterPulse_cfg, afterPulse_lastEdgeTimestamp]
    rfl

theorem inFrameAt_later {s : State} {d : Nat} (harmed : s.armed = true) (hvalid : s.lastEdgeValid = true)
    (hd : inFrameInterval s.cfg d) : s.inFrameAt (s.cfg.widths.later s.lastEdgeTimestamp d) := by
  obtain ⟨hgap, hfits⟩ := hd
  exact ⟨harmed, hvalid, (interval_later _ _ _ hfits).trans_le hgap⟩

/-- A rising edge `d` after the last one samples a pulse of width `d`. -/
theorem exec_edgeRise_later {s : State} {d : Nat} (harmed : s.armed = true) (hvalid : s.lastEdgeValid = true)
    (hd : inFrameInterval s.cfg d) :
    exec (.edgeRise (s.cfg.widths.later s.lastEdgeTimestamp d)) s =
      .next (samplePulse d (s.cfg.widths.later s.lastEdgeTimestamp d)
        { s with lastEdgeTimestamp := s.cfg.widths.later s.lastEdgeTimestamp d }) := by
  refine exec_edgeRise_of_samplePulse (inFrameAt_later harmed hvalid hd) ?_
  rw [interval_later _ _ _ hd.2]

/-- The edges of a train whose intervals are all inside a frame: a fold of `afterPulse`. -/
theorem runOps_pulseTrain (pulses : List (Nat × Nat)) (s : State) (harmed : s.armed = true)
    (hvalid : s.lastEdgeValid = true) (hin : ∀ pulse ∈ pulses, InFramePulse s.cfg pulse) :
    runOps (pulseTrain s.cfg.widths s.lastEdgeTimestamp pulses) s = .next (pulses.foldl afterPulse s) := by
  induction pulses generalizing s with
  | nil => rfl
  | cons pulse rest ih =>
    obtain ⟨⟨hhigh, hlow⟩, hrest⟩ := List.forall_mem_cons.1 hin
    have fall := edge_falling_inFrame _ s (inFrameAt_later harmed hvalid hhigh)
    have rise := exec_edgeRise_later
      (s := { s with lastEdgeTimestamp := s.cfg.widths.later s.lastEdgeTimestamp pulse.1 }) harmed hvalid hlow
    have tail := ih (afterPulse s pulse) ((afterPulse_armed s pulse).trans harmed)
      ((afterPulse_lastEdgeValid s pulse).trans hvalid) (afterPulse_cfg s pulse ▸ hrest)
    rw [afterPulse_cfg, afterPulse_lastEdgeTimestamp] at tail
    rw [List.foldl_cons, ← tail, pulseTrain, runOps_cons _ _ _ _ ((exec_edgeFall _ s).trans (congrArg _ fall)),
      runOps_cons _ _ _ _ rise]
    rfl

/-- The state after a frame's first two edges: the start condition and the start pulse (R114, R117). -/
def frameOpened (s : State) (t0 start : Nat) : State :=
  takeStartPulse start
    { startCondition { s with lastEdgeTimestamp := t0 } with lastEdgeTimestamp := s.cfg.widths.later t0 start }

theorem runOps_frameEdges {s : State} {t0 start : Nat} {pulses : List (Nat × Nat)} (hgap : s.startsFrameAt t0)
    (hstart : inFrameInterval s.cfg start) (hin : ∀ pulse ∈ pulses, InFramePulse s.cfg pulse) :
    runOps (frameEdges s.cfg.widths t0 start pulses) s = .next (pulses.foldl afterPulse (frameOpened s t0 start)) := by
  have ⟨harmed, hvalid, _⟩ := hgap
  have fall := edge_gap .falling t0 s hgap
  have rise : exec (.edgeRise (s.cfg.widths.later t0 start)) (startCondition { s with lastEdgeTimestamp := t0 }) =
      .next (frameOpened s t0 start) :=
    (exec_edgeRise_later (s := startCondition { s with lastEdgeTimestamp := t0 }) harmed hvalid hstart).trans
      (congrArg _ (samplePulse_startDetected _ _ _ rfl))
  rw [frameEdges, runOps_cons _ _ _ _ ((exec_edgeFall t0 s).trans (congrArg _ fall)), runOps_cons _ _ _ _ rise]
  exact runOps_pulseTrain pulses (frameOpened s t0 start) harmed hvalid hin

/-! ### The bits that pulses spell (R106) -/

section
variable {c : Config} {T : Nat}

theorem pulsesSpell_inFrame {bits : List Bool} {pulses : List (Nat × Nat)} (h : PulsesSpell c T bits pulses) :
    ∀ pulse ∈ pulses, InFramePulse c pulse := by
  induction h with
  | nil => exact List.forall_mem_nil _
  | cons hpulse _ ih =>
    obtain ⟨hhigh, hlow, _⟩ := hpulse
    exact List.forall_mem_cons.2 ⟨⟨hhigh, hlow⟩, ih⟩

/-- The pulses of two lists of bits, one after the other, are the pulses of each. -/
theorem pulsesSpell_split {first second : List Bool} {pulses : List (Nat × Nat)}
    (h : PulsesSpell c T (first ++ second) pulses) :
    ∃ front back, pulses = front ++ back ∧ PulsesSpell c T first front ∧ PulsesSpell c T second back := by
  induction first generalizing pulses with
  | nil => exact ⟨[], pulses, rfl, .nil, h⟩
  | cons b rest ih =>
    obtain ⟨pulse, tail, hpulse, htail, rfl⟩ := List.forall₂_cons_left_iff.1 h
    obtain ⟨front, back, rfl, hfront, hback⟩ := ih htail
    exact ⟨pulse :: front, back, rfl, .cons hpulse hfront, hback⟩

/-- A pulse that spells a bit is classified as that bit (R102, R106). -/
theorem classify_of_spells {b : Bool} {w : Nat} (h : b = true ↔ w < T) : classify w T = b :=
  Bool.eq_iff_iff.2 ((classify_iff w T).trans h.symm)

theorem pulsesSpell_singleton {b : Bool} {pulses : List (Nat × Nat)} (h : PulsesSpell c T [b] pulses) :
    ∃ pulse, pulses = [pulse] ∧ classify pulse.2 T = b := by
  obtain ⟨pulse, tail, ⟨_, _, hbit⟩, htail, rfl⟩ := List.forall₂_cons_left_iff.1 h
  obtain rfl := List.forall₂_nil_left_iff.1 htail
  exact ⟨pulse, rfl, classify_of_spells hbit⟩

end

/-! ### A frame in progress -/

theorem bitsValue_lt (bits : List Bool) : bitsValue bits < 2 ^ bits.length := by
  induction bits using List.reverseRecOn with
  | nil => decide
  | append_singleton bits b ih =>
    have hb := b.toNat_le
    rw [bitsValue_append_singleton, List.length_append, List.length_singleton, Nat.pow_succ]
    omega

/-- In `u` a frame is in progress that was opened in `s` and calibrated to the threshold `T`: the registers hold the data
bits received and the parity of those of the current group, and the output is as it was (R23 to R25). -/
structure FrameInProgress (s : State) (T : Nat) (phase : Phase) (received group : List Bool) (u : State) : Prop where
  cfg : u.cfg = s.cfg
  responses : u.responses = s.responses
  output : OutputKept s u
  thresholdMicros : u.thresholdMicros = T
  phase : u.phase = phase
  bitPosition : u.bitPosition = received.length
  accumulator : u.accumulator.toNat = bitsValue received
  parityAccumulator : u.parityAccumulator = parityOf group

theorem frameOpened_inProgress (s : State) (t0 start : Nat) :
    FrameInProgress s ((start + s.thresholdMicros / 4) % 2 ^ s.cfg.widths.ts) .receiving [] []
      (frameOpened s t0 start) where
  cfg := rfl
  responses := rfl
  output := ⟨rfl, rfl, rfl, rfl⟩
  thresholdMicros := nextThreshold_eq _ _ _
  phase := rfl
  bitPosition := rfl
  accumulator := rfl
  parityAccumulator := rfl

/-- The first parity position after `n` data bits comes with `len` more (R119). -/
def CheckAfter (p : Profile) (n len : Nat) : Prop :=
  isParityPosition p (n + len) = true ∧ ∀ k, n < k → k < n + len → isParityPosition p k = false

theorem checkAfter_firstGroup (p : Profile) : CheckAfter p 0 9 := by
  have hD := firstGroup_lt p
  refine ⟨(isParityPosition_iff p _).2 (.inl rfl), fun k _ hk => ?_⟩
  rw [← Bool.not_eq_true, isParityPosition_iff]
  omega

theorem checkAfter_secondGroup (p : Profile) : CheckAfter p 9 p.secondGroup := by
  refine ⟨(isParityPosition_iff p _).2 (.inr rfl), fun k _ hk => ?_⟩
  rw [← dataBits_eq] at hk
  rw [← Bool.not_eq_true, isParityPosition_iff]
  omega

theorem CheckAfter.le_dataBits {p : Profile} {n len : Nat} (h : CheckAfter p n len) : n + len ≤ p.dataBits := by
  have hD := firstGroup_lt p
  have := (isParityPosition_iff p _).1 h.1
  omega

namespace FrameInProgress

variable {s u : State} {T : Nat} {received group : List Bool}

theorem atEnd {phase : Phase} (h : FrameInProgress s T phase received group u) (pulse : Nat × Nat) :
    FrameInProgress s T phase received group (atPulseEnd u pulse) :=
  { h with output := { h.output with } }

/-- However the frame ends, the entry that was visible at its start is left as it was (R51, R141). -/
theorem oldEntry {phase : Phase} (h : FrameInProgress s T phase received group u) {ts : Nat} {t : State}
    (ends : EndsFrame ts u t) : t.buf.read s.visibleIdx = s.visible := by
  have other : u.visibleIdx ≠ u.writeIdx := ne_other u.visibleIdx
  rw [State.visible, ← h.output.visibleIdx, ← h.output.buf]
  exact ends.read_other other

/-- The pulse of a data bit adds it at the low end, to the position and to the parity (R118, R119). -/
theorem dataPulse (h : FrameInProgress s T .receiving received group u) {pulse : Nat × Nat} {b : Bool}
    (hbit : classify pulse.2 T = b) (hroom : received.length < s.cfg.profile.dataBits) :
    FrameInProgress s T (if isParityPosition s.cfg.profile (received.length + 1) then .parityCheck else .receiving)
      (received ++ [b]) (group ++ [b]) (afterPulse u pulse) := by
  have hat := h.atEnd pulse
  have hnext : nextPosition s.cfg.profile received.length = received.length + 1 := nextPosition_of_lt _ _ hroom
  have hfits : bitsValue (received ++ [b]) < 2 ^ s.cfg.profile.dataBits :=
    (bitsValue_lt _).trans_le (Nat.pow_le_pow_right two_pos (by simpa using hroom))
  rw [afterPulse, samplePulse_receiving _ _ _ hat.phase]
  exact {
    cfg := hat.cfg
    responses := hat.responses
    output := { hat.output with }
    thresholdMicros := hat.thresholdMicros
    phase := by rw [takeDataPulse_phase, hat.cfg, hat.bitPosition, hnext]
    bitPosition := by rw [takeDataPulse_bitPosition, hat.cfg, hat.bitPosition, hnext, List.length_append]; rfl
    accumulator := by
      rw [takeDataPulse_accumulator, shiftIn_toNat, hat.cfg, hat.accumulator, hat.thresholdMicros, hbit,
        ← bitsValue_append_singleton, Nat.mod_eq_of_lt hfits]
    parityAccumulator := by
      rw [takeDataPulse_parityAccumulator, hat.parityAccumulator, hat.thresholdMicros, hbit,
        parityOf_append_singleton] }

/-- The pulses of the data bits up to the next parity position. -/
theorem dataPulses {bits : List Bool} {pulses : List (Nat × Nat)} (hspell : PulsesSpell s.cfg T bits pulses)
    (h : FrameInProgress s T .receiving received group u) (hne : bits ≠ [])
    (hcheck : CheckAfter s.cfg.profile received.length bits.length) :
    FrameInProgress s T .parityCheck (received ++ bits) (group ++ bits) (pulses.foldl afterPulse u) := by
  induction hspell generalizing received group u with
  | nil => exact absurd rfl hne
  | @cons b pulse rest tail hpulse htail ih =>
    have ⟨hend, hnone⟩ := hcheck
    have hroom := hcheck.le_dataBits
    obtain ⟨_, _, hbit⟩ := hpulse
    rw [List.length_cons] at hend hnone hroom
    have hstep := h.dataPulse (classify_of_spells hbit) (by omega)
    rw [List.foldl_cons]
    cases rest with
    | nil =>
      cases htail
      rw [List.length_nil, Nat.zero_add] at hend
      rwa [if_pos hend] at hstep
    | cons b' rest =>
      have hinside : isParityPosition s.cfg.profile (received.length + 1) = false :=
        hnone _ (Nat.lt_succ_self _) (by rw [List.length_cons]; omega)
      rw [hinside] at hstep
      have hlength : (received ++ [b]).length = received.length + 1 := List.length_append
      have hafter : CheckAfter s.cfg.profile (received ++ [b]).length (b' :: rest).length := by
        rw [hlength]
        refine ⟨by rwa [Nat.add_right_comm, Nat.add_assoc], fun k hk hk' => hnone k (by omega) (by omega)⟩
      rw [List.append_cons received, List.append_cons group]
      exact ih hstep (List.cons_ne_nil _ _) hafter

/-- The pulses of a group and of its parity bit: the last of them compares, and the bits match exactly when they have even
parity together (R74, R120). -/
theorem groupPulses (h : FrameInProgress s T .receiving received [] u) {bits : List Bool} {len : Nat}
    {pulses : List (Nat × Nat)} (hspell : PulsesSpell s.cfg T bits pulses) (hlen : bits.length = len + 1)
    (hpos : 0 < len) (hcheck : CheckAfter s.cfg.profile received.length len) :
    ∃ w pulse, pulses.foldl afterPulse u = afterPulse w pulse ∧
      FrameInProgress s T .parityCheck (received ++ bits.dropLast) bits.dropLast w ∧
      (classify pulse.2 T = parityOf bits.dropLast ↔ parityOf bits = false) := by
  obtain ⟨data, parity, rfl⟩ := (List.eq_nil_or_concat' bits).resolve_left (by rintro rfl; cases hlen)
  obtain ⟨front, back, rfl, hdata, hparity⟩ := pulsesSpell_split hspell
  obtain ⟨pulse, rfl, rfl⟩ := pulsesSpell_singleton hparity
  obtain rfl : data.length = len := by simpa using hlen
  rw [List.dropLast_concat]
  refine ⟨front.foldl afterPulse u, pulse, by rw [List.foldl_concat],
    h.dataPulses hdata (List.ne_nil_of_length_pos hpos) hcheck, ?_⟩
  rw [parityOf_append_singleton, parityWith, bne_eq_false_iff_eq, eq_comm]

/-- A match at the first parity position opens the second group (R121). -/
theorem firstMatch (h : FrameInProgress s T .parityCheck received group u) {pulse : Nat × Nat}
    (hbit : classify pulse.2 T = parityOf group) (hpos : received.length ≠ s.cfg.profile.dataBits) :
    FrameInProgress s T .receiving received [] (afterPulse u pulse) := by
  have hat := h.atEnd pulse
  rw [afterPulse, samplePulse_firstMatch _ _ _ hat.phase (by rw [hat.thresholdMicros, hat.parityAccumulator, hbit])
    (by rwa [hat.bitPosition, hat.cfg])]
  exact { hat with
    output := { hat.output with }
    phase := rfl
    parityAccumulator := rfl }

end FrameInProgress

/-! ### A frame that fails a check (R123, R124) -/

/-- In `t` a frame that was opened in `s` has failed the check at a position: an invalid entry is visible and the
heartbeat is untouched. -/
structure FrameFailed (s : State) (position : Nat) (t : State) : Prop where
  phase : t.phase = .frameError
  invalid : t.visible.valid = false
  bitPosition : t.bitPosition = position
  visibleIdx : t.visibleIdx = 1 - s.visibleIdx
  oldEntry : t.buf.read s.visibleIdx = s.visible
  hbValid : t.hbValid = s.hbValid
  lastHeartbeatTimestamp : t.lastHeartbeatTimestamp = s.lastHeartbeatTimestamp

theorem FrameInProgress.mismatch {s u : State} {T : Nat} {received group : List Bool}
    (h : FrameInProgress s T .parityCheck received group u) {pulse : Nat × Nat}
    (hbit : classify pulse.2 T ≠ parityOf group) : FrameFailed s received.length (afterPulse u pulse) := by
  have hat := h.atEnd pulse
  rw [afterPulse, samplePulse_mismatch _ _ _ hat.phase (by rwa [hat.thresholdMicros, hat.parityAccumulator])]
  exact {
    phase := rfl
    invalid := congrArg RawFrame.valid (enterFrameError_visible _)
    bitPosition := hat.bitPosition
    visibleIdx := congrArg (1 - ·) hat.output.visibleIdx
    oldEntry := hat.oldEntry (ts := pulseEnd u pulse) ⟨hat.phase, .inl rfl⟩
    hbValid := hat.output.hbValid
    lastHeartbeatTimestamp := hat.output.lastHeartbeatTimestamp }

/-- Until the next start condition the pulses that follow are ignored (R116). -/
theorem FrameFailed.foldl_afterPulse {s t : State} {position : Nat} (h : FrameFailed s position t)
    (pulses : List (Nat × Nat)) : FrameFailed s position (pulses.foldl afterPulse t) := by
  induction pulses generalizing t with
  | nil => exact h
  | cons pulse rest ih =>
    have ignored : afterPulse t pulse = atPulseEnd t pulse := samplePulse_outsideFrame _ _ _ (.inr (.inr h.phase))
    rw [List.foldl_cons, ignored]
    exact ih { h with }

/-! ### A frame that passes both checks (R122) -/

/-- In `t` a frame that was opened in `s` is complete: its data are visible as a valid entry, and the heartbeat stands at
the last edge. -/
structure FrameReceived (s : State) (T : Nat) (data : List Bool) (t : State) : Prop where
  phase : t.phase = .frameComplete
  visible : t.visible = ⟨BitVec.ofNat 14 (bitsValue data), true⟩
  hbValid : t.hbValid = true
  lastHeartbeatTimestamp : t.lastHeartbeatTimestamp = t.lastEdgeTimestamp
  bitPosition : t.bitPosition = s.cfg.profile.dataBits
  visibleIdx : t.visibleIdx = 1 - s.visibleIdx
  oldEntry : t.buf.read s.visibleIdx = s.visible
  responses : t.responses = s.responses
  thresholdMicros : t.thresholdMicros = T

theorem FrameInProgress.finalMatch {s u : State} {T : Nat} {received group : List Bool}
    (h : FrameInProgress s T .parityCheck received group u) {pulse : Nat × Nat}
    (hbit : classify pulse.2 T = parityOf group) (hpos : received.length = s.cfg.profile.dataBits) :
    FrameReceived s T received (afterPulse u pulse) := by
  have hat := h.atEnd pulse
  have hposition : (atPulseEnd u pulse).bitPosition = (atPulseEnd u pulse).cfg.profile.dataBits := by
    rw [hat.bitPosition, hat.cfg, hpos]
  rw [afterPulse, samplePulse_finalMatch _ _ _ hat.phase (by rw [hat.thresholdMicros, hat.parityAccumulator, hbit])
    hposition]
  exact {
    phase := rfl
    visible := by rw [completeFrame_visible, ← hat.accumulator, BitVec.ofNat_toNat, BitVec.setWidth_eq]
    hbValid := rfl
    lastHeartbeatTimestamp := rfl
    bitPosition := hat.bitPosition.trans hpos
    visibleIdx := congrArg (1 - ·) hat.output.visibleIdx
    oldEntry := hat.oldEntry ⟨hat.phase, .inr ⟨hposition, rfl⟩⟩
    responses := hat.responses
    thresholdMicros := hat.thresholdMicros }

/-! ### The two groups of a frame (R71, R74, R91) -/

section
variable {s u : State} {T : Nat} (h : FrameInProgress s T .receiving [] [] u)
variable {first second : List Bool} {front back : List (Nat × Nat)}
variable (hfirst : PulsesSpell s.cfg T first front) (hfirstLen : first.length = 10)
include h hfirst hfirstLen

/-- A first group of odd parity ends the frame at `G1`, whatever follows. -/
theorem firstGroup_fails (hodd : parityOf first = true) (rest : List (Nat × Nat)) :
    FrameFailed s 9 ((front ++ rest).foldl afterPulse u) := by
  obtain ⟨w, pulse, hfold, hw, heven⟩ :=
    h.groupPulses hfirst hfirstLen (by decide) (checkAfter_firstGroup s.cfg.profile)
  have failed := hw.mismatch (pulse := pulse) (mt heven.1 (by rw [hodd]; decide))
  rw [List.nil_append, List.length_dropLast, hfirstLen] at failed
  rw [List.foldl_append, hfold]
  exact failed.foldl_afterPulse rest

/-- A first group of even parity leaves its nine data bits received. -/
theorem firstGroup_passes (heven : parityOf first = false) :
    FrameInProgress s T .receiving first.dropLast [] (front.foldl afterPulse u) := by
  obtain ⟨w, pulse, hfold, hw, hiff⟩ :=
    h.groupPulses hfirst hfirstLen (by decide) (checkAfter_firstGroup s.cfg.profile)
  have hD := firstGroup_lt s.cfg.profile
  have passed := hw.firstMatch (hiff.2 heven) (by rw [List.nil_append, List.length_dropLast, hfirstLen]; omega)
  rw [hfold]
  exact passed

variable (heven : parityOf first = false) (hsecond : PulsesSpell s.cfg T second back)
variable (hsecondLen : second.length = s.cfg.profile.secondGroup + 1)
include heven hsecond hsecondLen

/-- The second group after a first one that passed: all data bits are received and the final check is next. -/
theorem secondGroup_checked : ∃ w pulse, (front ++ back).foldl afterPulse u = afterPulse w pulse ∧
    FrameInProgress s T .parityCheck (first.dropLast ++ second.dropLast) second.dropLast w ∧
    (first.dropLast ++ second.dropLast).length = s.cfg.profile.dataBits ∧
    (classify pulse.2 T = parityOf second.dropLast ↔ parityOf second = false) := by
  have passed := firstGroup_passes h hfirst hfirstLen heven
  have hnine : first.dropLast.length = 9 := by rw [List.length_dropLast, hfirstLen]
  have hall : (first.dropLast ++ second.dropLast).length = s.cfg.profile.dataBits := by
    rw [List.length_append, hnine, List.length_dropLast, hsecondLen]
    rfl
  obtain ⟨w, pulse, hfold, hw, hiff⟩ := passed.groupPulses hsecond hsecondLen (secondGroup_pos _)
    (hnine.symm ▸ checkAfter_secondGroup s.cfg.profile)
  exact ⟨w, pulse, by rw [List.foldl_append, hfold], hw, hall, hiff⟩

theorem secondGroup_fails (hodd : parityOf second = true) :
    FrameFailed s s.cfg.profile.dataBits ((front ++ back).foldl afterPulse u) := by
  obtain ⟨w, pulse, hfold, hw, hall, hiff⟩ := secondGroup_checked h hfirst hfirstLen heven hsecond hsecondLen
  rw [hfold, ← hall]
  exact hw.mismatch (mt hiff.1 (by rw [hodd]; decide))

theorem secondGroup_passes (heven' : parityOf second = false) :
    FrameReceived s T (first.dropLast ++ second.dropLast) ((front ++ back).foldl afterPulse u) := by
  obtain ⟨w, pulse, hfold, hw, hall, hiff⟩ := secondGroup_checked h hfirst hfirstLen heven hsecond hsecondLen
  rw [hfold]
  exact hw.finalMatch (hiff.2 heven') hall

end

/-! ### The frame of a data word (R91) -/

/-- The first group of a frame with its parity bit. -/
def firstHalf (p : Profile) (data : Nat) : List Bool := firstGroupBits p data ++ [parityOf (firstGroupBits p data)]

/-- The second group of a frame with its parity bit. -/
def secondHalf (p : Profile) (data : Nat) : List Bool := secondGroupBits p data ++ [parityOf (secondGroupBits p data)]

section
variable (p : Profile) (data : Nat)

theorem frameBitList_eq_halves : frameBitList p data = firstHalf p data ++ secondHalf p data :=
  frameBitList_eq_groups p data

theorem firstHalf_length : (firstHalf p data).length = 10 := firstGroup_withParity_length p data

theorem secondHalf_length : (secondHalf p data).length = p.secondGroup + 1 := by
  rw [secondHalf, List.length_append, secondGroupBits_length]
  rfl

theorem firstHalf_even : parityOf (firstHalf p data) = false := parityOf_append_parity _

theorem secondHalf_even : parityOf (secondHalf p data) = false := parityOf_append_parity _

theorem bitsValue_halves (hdata : data < 2 ^ p.dataBits) :
    bitsValue ((firstHalf p data).dropLast ++ (secondHalf p data).dropLast) = data := by
  rw [firstHalf, secondHalf, List.dropLast_concat, List.dropLast_concat, firstGroupBits_append_secondGroupBits,
    bitsValue_msbFirst, Nat.mod_eq_of_lt hdata]

end

/-- Settles O37: both halves of the frame have even parity, so both checks pass and the data bits are the data word's. -/
theorem frameSentIsFrameReceived : Obligations.FrameSentIsFrameReceived := by
  intro s payload control t0 start pulses hpayload hcontrol hgap hstart hspell
  have hdata := frameData_lt s.cfg.profile payload control hpayload hcontrol
  have hrun := runOps_frameEdges hgap hstart (pulsesSpell_inFrame hspell)
  rw [frameBitList_eq_halves] at hspell
  obtain ⟨front, back, rfl, hfirst, hsecond⟩ := pulsesSpell_split hspell
  have received := secondGroup_passes (frameOpened_inProgress s t0 start) hfirst (firstHalf_length _ _)
    (firstHalf_even _ _) hsecond (secondHalf_length _ _) (secondHalf_even _ _)
  have hvisible := received.visible
  rw [bitsValue_halves _ _ hdata] at hvisible
  have hbits : (BitVec.ofNat 14 (frameData s.cfg.profile payload control)).toNat % 2 ^ s.cfg.profile.payloadWidth =
      payload := by
    have hfits := hdata.trans_le (Nat.pow_le_pow_right two_pos (dataBits_le s.cfg.profile))
    rw [BitVec.toNat_ofNat, Nat.mod_eq_of_lt hfits]
    exact field_mod _ _ _ hpayload
  have htime := foldl_afterPulse_lastEdgeTimestamp (front ++ back) (frameOpened s t0 start)
  exact ⟨_, hrun, received.phase, hvisible, by rw [hvisible, hbits], received.hbValid,
    received.lastHeartbeatTimestamp.trans htime, received.bitPosition, received.visibleIdx, received.oldEntry,
    received.responses, received.thresholdMicros⟩

/-! ### One inverted bit (R129 (b)) -/

theorem parityOf_cons (b : Bool) (bits : List Bool) : parityOf (b :: bits) = parityWith b (parityOf bits) := by
  rw [parityOf, List.foldl_cons, Bool.false_xor, ← Bool.xor_false b, List.foldl_assoc, Bool.xor_false]
  rfl

theorem flipBit_length (bits : List Bool) (k : Nat) : (flipBit bits k).length = bits.length := List.length_modify _ _ _

theorem parityOf_flipBit (bits : List Bool) (k : Nat) (hk : k < bits.length) :
    parityOf (flipBit bits k) = !parityOf bits := by
  induction bits generalizing k with
  | nil => exact absurd hk (Nat.not_lt_zero k)
  | cons b rest ih =>
    cases k with
    | zero => rw [flipBit, List.modify_zero_cons, parityOf_cons, parityOf_cons, parityWith, parityWith, Bool.not_xor]
    | succ k =>
      rw [flipBit, List.modify_succ_cons, parityOf_cons, parityOf_cons, ← flipBit, ih k (Nat.lt_of_succ_lt_succ hk),
        parityWith, parityWith, Bool.xor_not]

theorem flipBit_append_left (first second : List Bool) (k : Nat) (hk : k < first.length) :
    flipBit (first ++ second) k = flipBit first k ++ second := by
  induction first generalizing k with
  | nil => exact absurd hk (Nat.not_lt_zero k)
  | cons b rest ih =>
    cases k with
    | zero => rfl
    | succ k => exact congrArg (b :: ·) (ih k (Nat.lt_of_succ_lt_succ hk))

theorem flipBit_append_right (first second : List Bool) (k : Nat) :
    flipBit (first ++ second) (first.length + k) = first ++ flipBit second k := by
  induction first with
  | nil => rw [List.length_nil, Nat.zero_add]; rfl
  | cons b rest ih =>
    rw [List.length_cons, Nat.succ_add]
    exact congrArg (b :: ·) ih

/-- The frame with bit `k` inverted ends at the check of the half that the bit stands in. -/
theorem flippedFrame_fails {s u : State} {T : Nat} (h : FrameInProgress s T .receiving [] [] u) (data k : Nat)
    (hk : k < s.cfg.profile.pulses) {pulses : List (Nat × Nat)}
    (hspell : PulsesSpell s.cfg T (flipBit (frameBitList s.cfg.profile data) k) pulses) :
    FrameFailed s (if k ≤ 9 then 9 else s.cfg.profile.dataBits) (pulses.foldl afterPulse u) := by
  have hlen := firstHalf_length s.cfg.profile data
  have hlen' := secondHalf_length s.cfg.profile data
  rw [frameBitList_eq_halves] at hspell
  rcases Nat.lt_or_ge k 10 with hfirst | hsecond
  · rw [flipBit_append_left _ _ _ (hlen.symm ▸ hfirst)] at hspell
    obtain ⟨front, back, rfl, hfront, _⟩ := pulsesSpell_split hspell
    have hodd : parityOf (flipBit (firstHalf s.cfg.profile data) k) = true := by
      rw [parityOf_flipBit _ _ (hlen.symm ▸ hfirst), firstHalf_even]
      rfl
    rw [if_pos (Nat.le_of_lt_succ hfirst)]
    exact firstGroup_fails h hfront ((flipBit_length _ _).trans hlen) hodd back
  · obtain ⟨j, rfl⟩ := Nat.exists_eq_add_of_le hsecond
    have hj : j < (secondHalf s.cfg.profile data).length := by
      rw [hlen']
      rw [Profile.pulses, dataBits_eq] at hk
      omega
    rw [← hlen, flipBit_append_right] at hspell
    obtain ⟨front, back, rfl, hfront, hback⟩ := pulsesSpell_split hspell
    have hodd : parityOf (flipBit (secondHalf s.cfg.profile data) j) = true := by
      rw [parityOf_flipBit _ _ hj, secondHalf_even]
      rfl
    rw [if_neg (by omega)]
    exact secondGroup_fails h hfront hlen (firstHalf_even _ _) hback ((flipBit_length _ _).trans hlen') hodd

/-- Settles O38: an inverted bit makes the parity of its half odd, and `flippedFrame_fails` says where the frame ends. -/
theorem anySingleInvertedBitIsCaught : Obligations.AnySingleInvertedBitIsCaught := by
  intro s payload control k t0 start pulses _ _ hk hgap hstart hspell
  have failed := flippedFrame_fails (frameOpened_inProgress s t0 start) _ k hk hspell
  exact ⟨_, runOps_frameEdges hgap hstart (pulsesSpell_inFrame hspell), failed.phase, failed.invalid, failed.bitPosition,
    failed.visibleIdx, failed.oldEntry, failed.hbValid, failed.lastHeartbeatTimestamp⟩

end Sys2Proof.Proofs

/-! The statements of 42_frame_buffer.md: the swap of the two entries by `publish` (R141) and the answer of `TAKE` (R143). -/

namespace Sys2Proof.Proofs

open Sys2Proof.Machine

/-! ### `publish` swaps the two entries (R141) -/

section
variable (b : FrameBits) (v : Bool) (s : State)

theorem publish_read_hidden : (publish b v s).buf.read (1 - s.visibleIdx) = ⟨b, v⟩ := publish_visible b v s

/-- A `publish` stores to the hidden entry alone (R51). -/
theorem publish_read_other (a : BitVec 1) (ha : a ≠ 1 - s.visibleIdx) :
    (publish b v s).buf.read a = s.buf.read a := Memory.read_write_other _ _ _ _ ha

/-- The second `publish` shows again the entry that the first one hid, with a new frame in it. -/
theorem publish_publish_visibleIdx (b' : FrameBits) (v' : Bool) :
    (publish b' v' (publish b v s)).visibleIdx = s.visibleIdx := other_other s.visibleIdx

theorem publish_publish_read_shown (b' : FrameBits) (v' : Bool) :
    (publish b' v' (publish b v s)).buf.read s.visibleIdx = ⟨b', v'⟩ := by
  have shown := publish_visible b' v' (publish b v s)
  rwa [State.visible, publish_publish_visibleIdx] at shown

/-- The frame of the first `publish` is now the hidden one, and the second has left it as it was. -/
theorem publish_publish_read_hidden (b' : FrameBits) (v' : Bool) :
    (publish b' v' (publish b v s)).buf.read (1 - s.visibleIdx) = ⟨b, v⟩ :=
  (publish_read_old b' v' (publish b v s)).trans (publish_visible b v s)

end

/-- After reset entry 0 is the visible one, and entry 1 the hidden one (R43). -/
theorem resetWith_hidden (c : Config) : 1 - (State.resetWith c).visibleIdx = 1 := by
  rw [resetWith_visibleIdx]
  decide

/-- Settles O40: the two entries after one `publish` and after two; the example is the first `publish` after
reset. -/
theorem publishWritesTheHiddenEntryAndSwaps : Obligations.PublishWritesTheHiddenEntryAndSwaps := by
  refine ⟨fun s b v => ?_, fun c => ?_⟩
  · exact ⟨publish_visible b v s, rfl, publish_read_hidden b v s, publish_read_other b v s, publish_read_old b v s, rfl,
      fun b' v' => ⟨publish_publish_visibleIdx b v s b' v', publish_publish_read_shown b v s b' v',
        publish_publish_read_hidden b v s b' v'⟩⟩
  · have hidden := publish_read_hidden 0x0400 true (State.resetWith c)
    rw [resetWith_hidden] at hidden
    exact ⟨hidden, resetWith_hidden c, publish_read_old 0x0400 true (State.resetWith c)⟩

/-! ### The answer of `TAKE` (R81, R143) -/

/-- The status code of `OK` is 0, so that the word of an `OK` response is its data (R81). -/
theorem packRsp_ok (d : DataWord) : packRsp .ok d = BitVec.ofNat 35 d.toNat := by
  rw [packRsp, (statusCode_eq_zero_iff .ok).2 rfl, Nat.zero_mul, Nat.zero_add]

/-- Settles O41: `TAKE` only responds, with the data word of the visible entry. -/
theorem takeReturnsTheVisibleEntry : Obligations.TakeReturnsTheVisibleEntry := by
  intro s
  rw [exec_take, respond, packRsp_ok, takeData_toNat, State.visible]

end Sys2Proof.Proofs

/-! The statements of 43_temperature_decoder.md: the linear map (R153), the validity test (R154), the plausibility guard
and what it asks of two readings (R155, R160), and the rounding of the recommended binary32 (R156). -/

namespace Sys2Proof.Proofs

open Sys2Proof.Machine Sys2Proof.Laws

/-! ### The reference of the plausibility guard between two readings (R159, R160) -/

/-- The configuration and the last reported reading are the same in both states: all that the guard looks at. -/
structure ReportKept (s t : State) : Prop where
  cfg : t.cfg = s.cfg
  repValid : t.repValid = s.repValid
  lastReportedPayload : t.lastReportedPayload = s.lastReportedPayload
  lastReportedTimestamp : t.lastReportedTimestamp = s.lastReportedTimestamp

theorem ReportKept.trans {s t u : State} (hst : ReportKept s t) (htu : ReportKept t u) : ReportKept s u where
  cfg := htu.cfg.trans hst.cfg
  repValid := htu.repValid.trans hst.repValid
  lastReportedPayload := htu.lastReportedPayload.trans hst.lastReportedPayload
  lastReportedTimestamp := htu.lastReportedTimestamp.trans hst.lastReportedTimestamp

/-- No operation but `READ` writes the reported reading (R33 to R35, R159). -/
theorem exec_keeps_report (i : Instr) (s t : State) (hread : ∀ now tmo, i ≠ .read now tmo) (h : exec i s = .next t) :
    ReportKept s t := by
  cases hi : i.port with
  | consumer =>
    obtain ⟨hvalid, hpayload, htime⟩ := exec_consumer_keeps_report i s t hi h hread
    exact ⟨(exec_consumer_keeps_producerState i s t hi h).cfg, hvalid, hpayload, htime⟩
  | producer =>
    cases i with
    | edgeFall ts => cases h; exact { edge_keeps_consumerState .falling ts s with }
    | edgeRise ts => cases h; exact { edge_keeps_consumerState .rising ts s with }
    | _ => cases hi

theorem runOps_keeps_report (ops : List Instr) (s t : State) (hread : ∀ now tmo, Instr.read now tmo ∉ ops)
    (h : runOps ops s = .next t) : ReportKept s t :=
  runOps_induct (ReportKept s) ops s t
    (fun i hi u v hu he => hu.trans (exec_keeps_report i u v (fun now tmo heq => hread now tmo (heq ▸ hi)) he))
    ⟨rfl, rfl, rfl, rfl⟩ h

/-- The status field of a response is the code of its outcome (R81). -/
theorem packRsp_status (st : Status) (d : DataWord) : (packRsp st d).toNat / 2 ^ 32 = (statusCode st).toNat := by
  rw [packRsp_toNat]
  exact field_div _ _ _ d.isLt

theorem packRsp_ok_ne {st : Status} (hst : st ≠ .ok) (d d' : DataWord) : packRsp .ok d ≠ packRsp st d' := by
  intro h
  have hcode : (statusCode st).toNat = 0 := by
    rw [← packRsp_status st d', ← h, packRsp_status]
    rfl
  exact hst ((statusCode_eq_zero_iff st).1 hcode)

/-- A `READ` whose answer has status `OK` reported the visible temperature and made it the reference (R159, R185). -/
theorem exec_read_reported {s t : State} {now tmo : Nat} (h : exec (.read now tmo) s = .next t)
    (hok : t.responses.getLast?.map (·.toNat / 2 ^ 32) = some 0) :
    t = respond (tempEncode s.cfg.tempFormat s.visibleTemp)
      (recordReport (payloadOf s.cfg.profile s.visible.bits) now s) := by
  have notRaised (st : Status) (hst : st ≠ .ok) : t ≠ raise st s := by
    rintro rfl
    rw [raise_responses, List.getLast?_concat, Option.map_some, packRsp_status, Option.some_inj,
      statusCode_eq_zero_iff] at hok
    exact hst hok
  rcases exec_read_result now tmo s with ⟨_, he⟩ | ⟨_, _, he⟩ | ⟨_, _, _, he⟩ <;> rw [he] at h <;> cases h
  · exact absurd rfl (notRaised .notConnected (by decide))
  · exact absurd rfl (notRaised .misreading (by decide))
  · rfl

/-- The word of a `Misreading` (R81, R200). -/
theorem raise_misreading (s : State) : raise .misreading s = { s with responses := s.responses ++ [0x200000000] } := rfl

/-- A connected `READ` of a valid entry answers `Misreading` exactly when the temperature is implausible (R202). -/
theorem exec_read_misreading_iff {s : State} {now tmo : Nat} (hconn : connected s now tmo = true)
    (hvalid : s.visible.valid = true) :
    exec (.read now tmo) s = .next (raise .misreading s) ↔ plausible s s.visibleTemp now = false := by
  rcases exec_read_result now tmo s with ⟨hc, _⟩ | ⟨_, hbad, he⟩ | ⟨_, _, hp, he⟩
  · rw [hconn] at hc
    cases hc
  · rw [hvalid] at hbad
    simp [he, hbad.resolve_left]
  · have answers : exec (.read now tmo) s ≠ .next (raise .misreading s) := fun h => by
      rw [he, Host.Outcome.next.injEq] at h
      have hresponses := congrArg State.responses h
      rw [respond_responses, recordReport_responses, raise_responses] at hresponses
      exact packRsp_ok_ne (by decide) _ _ (List.singleton_inj.1 (List.append_cancel_left hresponses))
    simp [answers, hp]

/-- With a reference, the guard fails exactly when the change is more than the rate allows (R155). -/
theorem plausible_false_iff {s : State} (href : s.repValid = true) (t : Rat) (now : Nat) :
    plausible s t now = false ↔
      s.cfg.rate.value * (interval s.cfg.widths now s.lastReportedTimestamp : Rat) <
        |t - tempOf s.cfg.profile s.lastReportedPayload.toNat| * 1000000 := by
  rw [← Bool.not_eq_true, plausible_iff, href, not_or, not_le]
  simp

/-- Settles O56: the first `READ` made its reading the reference, nothing but a `READ` writes it, and the second one
compares with it. -/
theorem secondReadIsMisreadingExactlyWhenTheChangeIsTooFast :
    Obligations.SecondReadIsMisreadingExactlyWhenTheChangeIsTooFast := by
  intro s1 s2 s3 ops now1 now2 tmo1 tmo2 hread hok hops hrun hvalid hconn p p1 p2
  have hs2 := exec_read_reported hread hok
  have kept := runOps_keeps_report ops s2 s3 hops hrun
  have hcfg : s3.cfg = s1.cfg := by rw [kept.cfg, hs2]; rfl
  have href : s3.repValid = true := by rw [kept.repValid, hs2]; rfl
  have hpayload : s3.lastReportedPayload.toNat = p1 := by
    rw [kept.lastReportedPayload, hs2]
    exact payloadOf_toNat _ _
  have htime : s3.lastReportedTimestamp = now1 := by rw [kept.lastReportedTimestamp, hs2]; rfl
  rw [← raise_misreading, exec_read_misreading_iff hconn hvalid, plausible_false_iff href, hpayload, htime,
    State.visibleTemp, hcfg]

/-! ### The linear map (R153, R157) -/

section
variable (p : Profile)

/-- The difference of two temperatures, in quantisation steps (R153). -/
theorem tempOf_sub_tempOf (a b : Nat) : tempOf p a - tempOf p b =
    ((a : Rat) - (b : Rat)) * (((p.highC : Rat) - (p.lowC : Rat)) / (p.maxPayload : Rat)) := by
  rw [tempOf, tempOf]
  ring

theorem tempOf_zero : tempOf p 0 = (p.lowC : Rat) := by
  rw [tempOf, Nat.cast_zero]
  ring

theorem tempOf_maxPayload : tempOf p p.maxPayload = (p.highC : Rat) := by
  rw [tempOf, mul_div_cancel_left₀ _ (maxPayload_pos p).ne']
  ring

theorem quantisationStep_pos : 0 < ((p.highC : Rat) - (p.lowC : Rat)) / (p.maxPayload : Rat) :=
  div_pos (range_pos p) (maxPayload_pos p)

theorem tempOf_strictMono : StrictMono (tempOf p) := by
  intro a b hab
  have hdiff : 0 < (b : Rat) - (a : Rat) := sub_pos.2 (Nat.cast_lt.2 hab)
  rw [← sub_pos, tempOf_sub_tempOf]
  exact mul_pos hdiff (quantisationStep_pos p)

theorem tempOf_mem_range {a : Nat} (ha : a < 2 ^ p.payloadWidth) :
    (p.lowC : Rat) ≤ tempOf p a ∧ tempOf p a ≤ (p.highC : Rat) := by
  rw [← tempOf_zero, ← tempOf_maxPayload]
  exact ⟨(tempOf_strictMono p).monotone (Nat.zero_le a), (tempOf_strictMono p).monotone (Nat.le_sub_one_of_lt ha)⟩

end

/-- Settles O43: a linear map is determined by its ends and its step; the example is the map's value at 8192. -/
theorem tempOfIsTheLinearMap : Obligations.TempOfIsTheLinearMap := by
  refine ⟨fun p => ⟨tempOf_eq p, tempOf_zero p, tempOf_maxPayload p, fun a b hab => tempOf_strictMono p hab,
    fun a => ?_, fun a ha => tempOf_mem_range p ha⟩, ?_⟩
  · rw [tempOf_sub_tempOf, ← maxPayload_cast, Nat.cast_succ, add_sub_cancel_left, one_mul]
  · norm_num [tempOf_eq, Profile.lowC, Profile.highC, Profile.payloadWidth]

/-! ### `Decode` (R154) -/

/-- Settles O45: `decodeFrame_eq` has both cases, and looks at the low `N` bits of a valid entry only. -/
theorem decodeFailsExactlyOnInvalidEntries : Obligations.DecodeFailsExactlyOnInvalidEntries := by
  refine ⟨fun p e => ⟨?_, fun hvalid => ?_, fun b hb => ?_⟩, ?_, decodeFrame_eq _ _⟩
  · rw [decodeFrame_eq]
    simp
  · rw [decodeFrame_eq, if_pos hvalid, tempOf_eq]
  · rw [decodeFrame_eq, decodeFrame_eq, hb]
  · have hpayload : (0x0400 : FrameBits).toNat % 2 ^ Profile.full11.payloadWidth = 1024 := rfl
    rw [decodeFrame_eq, hpayload]
    norm_num [tempOf_eq, Profile.lowC, Profile.highC, Profile.payloadWidth]

/-! ### The integer form of the guard (R155) -/

theorem rate_den_pos (r : Rate) : (0 : Rat) < (r.denPred : Rat) + 1 := by positivity

/-- The guard's comparison, multiplied out: the two denominators are those of the rate and of the quantisation step. -/
theorem rate_lt_tempOf_sub_iff (p : Profile) (r : Rate) (a b dt : Nat) :
    r.value * (dt : Rat) < |tempOf p a - tempOf p b| * 1000000 ↔
      (r.num : Rat) * dt * p.maxPayload < |(a : Rat) - b| * ((p.highC : Rat) - p.lowC) * 10 ^ 6 * (r.denPred + 1) := by
  have hM := maxPayload_pos p
  have hden := rate_den_pos r
  have left : r.value * (dt : Rat) = r.num * dt * p.maxPayload / ((r.denPred + 1) * p.maxPayload) := by
    rw [Rate.value]
    field_simp
  have right : |tempOf p a - tempOf p b| * 1000000 =
      |(a : Rat) - b| * ((p.highC : Rat) - p.lowC) * 10 ^ 6 * (r.denPred + 1) / ((r.denPred + 1) * p.maxPayload) := by
    rw [tempOf_sub_tempOf, abs_mul, abs_of_pos (quantisationStep_pos p)]
    field_simp
    norm_num
  rw [left, right, div_lt_div_iff_of_pos_right (mul_pos hden hM)]

theorem range_toNat_cast (p : Profile) : ((p.highC - p.lowC).toNat : Rat) = (p.highC : Rat) - (p.lowC : Rat) := by
  have hrange : 0 ≤ p.highC - p.lowC := by cases p <;> decide
  rw [← Int.cast_natCast, Int.toNat_of_nonneg hrange, Int.cast_sub]

/-- Settles O46: the comparison of rationals, multiplied out, is one of natural numbers. -/
theorem plausibleAgreesWithItsIntegerForm : Obligations.PlausibleAgreesWithItsIntegerForm := by
  intro s payload now href
  have hdp (a b : Nat) : ((((a : Int) - b).natAbs : Nat) : Rat) = |(a : Rat) - b| := by
    rw [Nat.cast_natAbs]
    push_cast
    rfl
  rw [plausible_false_iff href, rate_lt_tempOf_sub_iff, ← hdp, ← range_toNat_cast, Profile.maxPayload]
  exact_mod_cast Iff.rfl

/-! ### Rounding once, to nearest, ties to even (R156, K3) -/

/-- `m` is a natural number nearest to `y`, and the even one where two are equally near (K3). -/
def IsNearestEven (m : Nat) (y : Rat) : Prop := 2 * |(m : Rat) - y| ≤ 1 ∧ (2 * |(m : Rat) - y| = 1 → m % 2 = 0)

/-- The distance to a fraction, multiplied out. -/
theorem isNearestEven_div_iff (m num : Nat) {den : Nat} (hden : 0 < den) :
    IsNearestEven m ((num : Rat) / den) ↔ 2 * ((m * den : Nat) - (num : Int)).natAbs ≤ den ∧
      (2 * ((m * den : Nat) - (num : Int)).natAbs = den → m % 2 = 0) := by
  have hd : (0 : Rat) < den := Nat.cast_pos.2 hden
  have hdist : 2 * |(m : Rat) - num / den| = (2 * ((m * den : Nat) - (num : Int)).natAbs : Nat) / (den : Rat) := by
    rw [sub_div' hd.ne', abs_div, abs_of_pos hd, Nat.cast_mul, Nat.cast_natAbs]
    push_cast
    ring
  rw [IsNearestEven, hdist, div_le_one₀ hd, div_eq_one_iff_eq hd.ne', Nat.cast_le, Nat.cast_inj]

theorem roundHalfEven_isNearestEven (num : Nat) {den : Nat} (hden : 0 < den) :
    IsNearestEven (roundHalfEven num den) ((num : Rat) / den) := by
  have hdivmod : num / den * den + num % den = num := Nat.div_add_mod' num den
  have hr : num % den < den := Nat.mod_lt _ hden
  have hup : (num / den + 1) * den = num / den * den + den := Nat.succ_mul _ _
  rw [isNearestEven_div_iff _ _ hden]
  simp only [roundHalfEven]
  split
  case isTrue hbelow => omega
  case isFalse =>
    split
    case isTrue habove => omega
    case isFalse =>
      rcases Nat.mod_two_eq_zero_or_one (num / den) with hq | hq
      · rw [hq, add_zero]
        omega
      · rw [hq]
        omega

/-! ### Scaling by a power of two -/

theorem two_zpow_of_nonneg {e : Int} (he : 0 ≤ e) : (2 : Rat) ^ e = ((2 ^ e.toNat : Nat) : Rat) := by
  rw [Nat.cast_pow, Nat.cast_ofNat, ← zpow_natCast, Int.toNat_of_nonneg he]

theorem two_zpow_of_neg {e : Int} (he : ¬ 0 ≤ e) : (2 : Rat) ^ e = ((2 ^ (-e).toNat : Nat) : Rat)⁻¹ := by
  rw [← two_zpow_of_nonneg (by omega), zpow_neg, inv_inv]

theorem two_zpow_pos (e : Int) : (0 : Rat) < 2 ^ e := zpow_pos (by norm_num) e

/-- `scaledRound` rounds the quotient, divided by the power of two, once. -/
theorem scaledRound_isNearestEven (num : Nat) {den : Nat} (hden : 0 < den) (shift : Int) :
    IsNearestEven (scaledRound num den shift) ((num : Rat) / den / 2 ^ shift) := by
  rw [scaledRound]
  split
  case isTrue hs =>
    rw [two_zpow_of_nonneg hs, div_div, ← Nat.cast_mul]
    exact roundHalfEven_isNearestEven _ (Nat.mul_pos hden (Nat.two_pow_pos _))
  case isFalse hs =>
    rw [two_zpow_of_neg hs, div_inv_eq_mul, div_mul_eq_mul_div, ← Nat.cast_mul]
    exact roundHalfEven_isNearestEven _ hden

/-- `2^e ≤ y < 2^(e+1)`: the binary exponent of `y`. -/
def HasExponent (y : Rat) (e : Int) : Prop := (2 : Rat) ^ e ≤ y ∧ y < 2 ^ (e + 1)

theorem log2_hasExponent {n : Nat} (hn : n ≠ 0) : HasExponent n n.log2 := by
  refine ⟨?_, ?_⟩
  · exact_mod_cast Nat.log2_self_le hn
  · exact_mod_cast Nat.lt_log2_self

theorem lt_two_zpow_iff {num den : Nat} (hden : 0 < den) (e : Int) :
    (num : Rat) / den < 2 ^ e ↔
      (if 0 ≤ e then decide (num < den * 2 ^ e.toNat) else decide (num * 2 ^ (-e).toNat < den)) = true := by
  have hd : (0 : Rat) < den := Nat.cast_pos.2 hden
  split
  case isTrue he =>
    rw [two_zpow_of_nonneg he, div_lt_iff₀' hd, decide_eq_true_iff]
    exact_mod_cast Iff.rfl
  case isFalse he =>
    have hp : (0 : Rat) < ((2 ^ (-e).toNat : Nat) : Rat) := Nat.cast_pos.2 (Nat.two_pow_pos _)
    rw [two_zpow_of_neg he, div_lt_iff₀ hd, ← div_eq_inv_mul, lt_div_iff₀ hp, decide_eq_true_iff]
    exact_mod_cast Iff.rfl

/-- The difference of the two logarithms is the exponent or one more. -/
theorem binaryExponent_hasExponent {num den : Nat} (hnum : num ≠ 0) (hden : 0 < den) :
    HasExponent ((num : Rat) / den) (binaryExponent num den) := by
  obtain ⟨hnumLow, hnumHigh⟩ := log2_hasExponent hnum
  obtain ⟨hdenLow, hdenHigh⟩ := log2_hasExponent hden.ne'
  have hd : (0 : Rat) < den := Nat.cast_pos.2 hden
  have hlow : (2 : Rat) ^ ((num.log2 : Int) - den.log2 - 1) ≤ (num : Rat) / den := by
    rw [sub_sub, zpow_sub₀ two_ne_zero]
    exact div_le_div₀ (Nat.cast_nonneg _) hnumLow hd hdenHigh.le
  have hhigh : (num : Rat) / den < 2 ^ ((num.log2 : Int) - den.log2 + 1) := by
    rw [sub_add_eq_add_sub, zpow_sub₀ two_ne_zero]
    exact div_lt_div₀ hnumHigh hdenLow (two_zpow_pos _).le (two_zpow_pos _)
  unfold binaryExponent
  simp only [← lt_two_zpow_iff hden]
  split
  case isTrue hbelow => exact ⟨hlow, by rwa [sub_add_cancel]⟩
  case isFalse habove => exact ⟨not_lt.1 habove, hhigh⟩

/-! ### The exponent and fraction fields (K3) -/

section
variable {m : Nat} {y : Rat} (h : IsNearestEven m y)
include h

theorem IsNearestEven.le {a : Nat} (ha : (a : Rat) ≤ y) : a ≤ m := by
  have hclose := (abs_le.1 (by linarith [h.1] : |(m : Rat) - y| ≤ 1 / 2)).1
  have hlt : (a : Rat) < m + 1 := by linarith
  exact Nat.lt_succ_iff.1 (by exact_mod_cast hlt)

theorem IsNearestEven.ge {a : Nat} (ha : y < a) : m ≤ a := by
  have hclose := (abs_le.1 (by linarith [h.1] : |(m : Rat) - y| ≤ 1 / 2)).2
  have hlt : (m : Rat) < a + 1 := by linarith
  exact Nat.lt_succ_iff.1 (by exact_mod_cast hlt)

end

/-- Between the ends of the normal range the exponent is not clamped. -/
theorem exponent_bounds {y : Rat} {e : Int} (h : HasExponent y e) (hlow : (2 : Rat) ^ (-126 : Int) ≤ y)
    (hhigh : y < (2 : Rat) ^ (127 : Int)) : -126 ≤ e ∧ e ≤ 126 := by
  obtain ⟨hle, hlt⟩ := h
  have hone : (1 : Rat) < 2 := by norm_num
  have h1 := (zpow_lt_zpow_iff_right₀ hone).1 (hlow.trans_lt hlt)
  have h2 := (zpow_lt_zpow_iff_right₀ hone).1 (hle.trans_lt hhigh)
  omega

/-- In the unit of its exponent a number has 24 bits before the point. -/
theorem HasExponent.scaled {y : Rat} {e : Int} (h : HasExponent y e) :
    ((2 ^ 23 : Nat) : Rat) ≤ y / 2 ^ (e - 23) ∧ y / 2 ^ (e - 23) < ((2 ^ 24 : Nat) : Rat) := by
  obtain ⟨hle, hlt⟩ := h
  rw [le_div_iff₀ (two_zpow_pos _), div_lt_iff₀ (two_zpow_pos _), Nat.cast_pow, Nat.cast_pow, Nat.cast_ofNat,
    ← zpow_natCast, ← zpow_natCast, ← zpow_add₀ two_ne_zero, ← zpow_add₀ two_ne_zero]
  have hfirst : ((23 : Nat) : Int) + (e - 23) = e := by omega
  have hlast : ((24 : Nat) : Int) + (e - 23) = e + 1 := by omega
  rw [hfirst, hlast]
  exact ⟨hle, hlt⟩

/-- The unit in the last place of a word's exponent field, without the sign bit. -/
def magnitudeUnit (mag : Nat) : Rat := (2 : Rat) ^ (((mag / 2 ^ 23 : Nat) : Int) - 150)

/-- The number that normal exponent and fraction fields stand for (K3). -/
def magnitudeValue (mag : Nat) : Rat := ((2 ^ 23 + mag % 2 ^ 23 : Nat) : Rat) * magnitudeUnit mag

/-- The fields are those of a normal number, none is nearer to `y`, and a tie goes to the even fraction. -/
structure IsNearestNormal (mag : Nat) (y : Rat) : Prop where
  normal : 1 ≤ mag / 2 ^ 23 ∧ mag / 2 ^ 23 ≤ 254
  nearest : 2 * |magnitudeValue mag - y| ≤ magnitudeUnit mag
  even : 2 * |magnitudeValue mag - y| = magnitudeUnit mag → mag % 2 = 0

/-- A significand rounded in the unit `u`, put back in its place. -/
theorem IsNearestEven.in_unit {m : Nat} {y u : Rat} (hu : 0 < u) (h : IsNearestEven m (y / u)) :
    2 * |(m : Rat) * u - y| ≤ u ∧ (2 * |(m : Rat) * u - y| = u → m % 2 = 0) := by
  have hscale : (m : Rat) * u - y = ((m : Rat) - y / u) * u := by rw [sub_mul, div_mul_cancel₀ _ hu.ne']
  rw [hscale, abs_mul, abs_of_pos hu, ← mul_assoc, mul_eq_right₀ hu.ne']
  exact ⟨mul_le_of_le_one_left hu.le h.1, h.2⟩

section
variable {e : Int} (he : -126 ≤ e)
include he

/-- A significand of 24 bits loses its first bit into the exponent field. -/
theorem magnitude_of_significand {m : Nat} (hm : 2 ^ 23 ≤ m) (hlt : m < 2 ^ 24) :
    magnitudeUnit ((e + 126).toNat * 2 ^ 23 + m) = 2 ^ (e - 23) ∧
      magnitudeValue ((e + 126).toNat * 2 ^ 23 + m) = m * 2 ^ (e - 23) := by
  have hfield : ((e + 126).toNat * 2 ^ 23 + m) / 2 ^ 23 = (e + 127).toNat := by omega
  have hfrac : 2 ^ 23 + ((e + 126).toNat * 2 ^ 23 + m) % 2 ^ 23 = m := by omega
  have hexp : ((e + 127).toNat : Int) - 150 = e - 23 := by omega
  have hunit : magnitudeUnit ((e + 126).toNat * 2 ^ 23 + m) = 2 ^ (e - 23) := by rw [magnitudeUnit, hfield, hexp]
  exact ⟨hunit, by rw [magnitudeValue, hunit, hfrac]⟩

/-- A significand that rounding has carried to 25 bits raises the exponent: the value is its own, in twice the unit. -/
theorem magnitude_of_carry :
    magnitudeUnit ((e + 126).toNat * 2 ^ 23 + 2 ^ 24) = 2 * 2 ^ (e - 23) ∧
      magnitudeValue ((e + 126).toNat * 2 ^ 23 + 2 ^ 24) = (2 ^ 24 : Nat) * 2 ^ (e - 23) := by
  have hfield : ((e + 126).toNat * 2 ^ 23 + 2 ^ 24) / 2 ^ 23 = (e + 128).toNat := by omega
  have hfrac : ((e + 126).toNat * 2 ^ 23 + 2 ^ 24) % 2 ^ 23 = 0 := by omega
  have hexp : ((e + 128).toNat : Int) - 150 = 1 + (e - 23) := by omega
  have hunit : magnitudeUnit ((e + 126).toNat * 2 ^ 23 + 2 ^ 24) = 2 * 2 ^ (e - 23) := by
    rw [magnitudeUnit, hfield, hexp, zpow_one_add₀ two_ne_zero]
  refine ⟨hunit, ?_⟩
  rw [magnitudeValue, hunit, hfrac]
  push_cast
  ring

/-- A rounded significand of 24 bits under its exponent, or one bit more: after a carry the fraction is 0. -/
theorem isNearestNormal_of_nearestEven {y : Rat} {m : Nat} (he' : e ≤ 126)
    (h : IsNearestEven m (y / 2 ^ (e - 23))) (hm : 2 ^ 23 ≤ m) (hm' : m ≤ 2 ^ 24) :
    IsNearestNormal ((e + 126).toNat * 2 ^ 23 + m) y := by
  have hupos := two_zpow_pos (e - 23)
  obtain ⟨hnear, heven⟩ := h.in_unit hupos
  rcases hm'.lt_or_eq with hlt | rfl
  · obtain ⟨hunit, hvalue⟩ := magnitude_of_significand he hm hlt
    refine ⟨by omega, by rwa [hvalue, hunit], fun htie => ?_⟩
    rw [hvalue, hunit] at htie
    have := heven htie
    omega
  · obtain ⟨hunit, hvalue⟩ := magnitude_of_carry he
    refine ⟨by omega, ?_, fun _ => by omega⟩
    rw [hvalue, hunit]
    linarith

end

theorem binary32Magnitude_isNearestNormal {num den : Nat} (hden : 0 < den)
    (hlow : (2 : Rat) ^ (-126 : Int) ≤ (num : Rat) / den) (hhigh : (num : Rat) / den < (2 : Rat) ^ (127 : Int)) :
    IsNearestNormal (binary32Magnitude num den) ((num : Rat) / den) := by
  have hnum : num ≠ 0 := by
    rintro rfl
    rw [Nat.cast_zero, zero_div] at hlow
    exact absurd hlow (not_le.2 (two_zpow_pos _))
  have hexp := binaryExponent_hasExponent hnum hden
  obtain ⟨he, he'⟩ := exponent_bounds hexp hlow hhigh
  obtain ⟨hscaled, hscaled'⟩ := hexp.scaled
  have hround := scaledRound_isNearestEven num hden (binaryExponent num den - 23)
  have hm := hround.le hscaled
  have hm' := hround.ge hscaled'
  have hmag : binary32Magnitude num den =
      (binaryExponent num den + 126).toNat * 2 ^ 23 + scaledRound num den (binaryExponent num den - 23) := by
    simp only [binary32Magnitude, if_neg hnum, max_eq_left he]
    exact min_eq_left (by omega)
  rw [hmag]
  exact isNearestNormal_of_nearestEven he he' hround hm hm'

/-! ### The word (K3) -/

theorem natAbs_num_div_den (t : Rat) : (t.num.natAbs : Rat) / t.den = |t| := by
  conv_rhs => rw [← Rat.num_div_den t, abs_div, Nat.abs_cast]
  rw [Nat.cast_natAbs, Int.cast_abs]

/-- The exponent and fraction fields of the word of `t`. -/
abbrev magnitudeOf (t : Rat) : Nat := binary32Magnitude t.num.natAbs t.den

section
variable {t : Rat} (h : IsNearestNormal (magnitudeOf t) |t|)
include h

theorem binary32_toNat : (binary32 t).toNat = (decide (t < 0)).toNat * 2 ^ 31 + magnitudeOf t := by
  have hsign := Bool.toNat_le (decide (t < 0))
  have hnormal : binary32Magnitude t.num.natAbs t.den / 2 ^ 23 ≤ 254 := h.normal.2
  rw [binary32, BitVec.toNat_ofNat]
  simp only [Rat.num_neg]
  exact Nat.mod_eq_of_lt (by omega)

theorem binary32_exponent : (binary32 t).toNat / 2 ^ 23 % 256 = magnitudeOf t / 2 ^ 23 := by
  have hsign := Bool.toNat_le (decide (t < 0))
  have hnormal := h.normal.2
  rw [binary32_toNat h]
  omega

theorem binary32_sign : (binary32 t).getLsbD 31 = decide (t < 0) := by
  have hnormal := h.normal.2
  rw [BitVec.getLsbD, Nat.testBit_eq_decide_div_mod_eq, binary32_toNat h]
  cases decide (t < 0) <;> simp <;> omega

theorem binary32Unit_binary32 : binary32Unit (binary32 t) = magnitudeUnit (magnitudeOf t) := by
  rw [binary32Unit, binary32_exponent h, magnitudeUnit]

theorem binary32Value_binary32 :
    binary32Value (binary32 t) = (if t < 0 then -1 else 1) * magnitudeValue (magnitudeOf t) := by
  have hfrac : (binary32 t).toNat % 2 ^ 23 = magnitudeOf t % 2 ^ 23 := by
    rw [binary32_toNat h]
    omega
  rw [binary32Value, binary32_sign h, binary32_exponent h, hfrac, magnitudeValue, magnitudeUnit, mul_assoc]
  simp only [decide_eq_true_eq]

/-- The word has the sign of the number, so that the error is that of the magnitude. -/
theorem binary32_error : |binary32Value (binary32 t) - t| = |magnitudeValue (magnitudeOf t) - (|t|)| := by
  rw [binary32Value_binary32 h]
  split
  case isTrue hneg =>
    rw [abs_of_neg hneg, neg_one_mul, ← abs_neg, neg_sub, sub_neg_eq_add, sub_neg_eq_add, add_comm]
  case isFalse hpos => rw [abs_of_nonneg (not_lt.1 hpos), one_mul]

end

/-- A number in the normal range is rounded to a nearest normal one (R156, K3). -/
theorem binary32_isNearestNormal {t : Rat} (hlow : (2 : Rat) ^ (-126 : Int) ≤ |t|)
    (hhigh : |t| < (2 : Rat) ^ (127 : Int)) : IsNearestNormal (magnitudeOf t) |t| := by
  rw [← natAbs_num_div_den] at hlow hhigh ⊢
  exact binary32Magnitude_isNearestNormal t.den_pos hlow hhigh

/-! ### The temperatures of a profile are normal numbers (R156) -/

/-- No payload gives 0 °C: the distance of 0 from `LOW_C` is no whole number of steps (R156). -/
theorem tempOf_numerator_ne_zero (p : Profile) (n : Nat) :
    p.lowC * p.maxPayload + n * (p.highC - p.lowC) ≠ 0 := by
  cases p <;> simp only [Profile.lowC, Profile.highC, Profile.maxPayload, Profile.payloadWidth] <;> omega

/-- A temperature is a multiple of a step's denominator, and not 0. -/
theorem le_abs_tempOf (p : Profile) (n : Nat) : 1 / (p.maxPayload : Rat) ≤ |tempOf p n| := by
  have hM := maxPayload_pos p
  have htemp : tempOf p n = ((p.lowC * p.maxPayload + n * (p.highC - p.lowC) : Int) : Rat) / p.maxPayload := by
    rw [tempOf]
    push_cast
    field_simp
  have hone : (1 : Rat) ≤ |((p.lowC * p.maxPayload + n * (p.highC - p.lowC) : Int) : Rat)| := by
    exact_mod_cast Int.one_le_abs (tempOf_numerator_ne_zero p n)
  rw [htemp, abs_div, abs_of_pos hM]
  exact div_le_div_of_nonneg_right hone hM.le

theorem tempOf_in_normalRange (p : Profile) {n : Nat} (hn : n < 2 ^ p.payloadWidth) :
    (2 : Rat) ^ (-126 : Int) ≤ |tempOf p n| ∧ |tempOf p n| < (2 : Rat) ^ (127 : Int) := by
  obtain ⟨hlow, hhigh⟩ := tempOf_mem_range p hn
  have hleast : (2 : Rat) ^ (-126 : Int) ≤ 1 / p.maxPayload := by
    cases p <;> norm_num [Profile.maxPayload, Profile.payloadWidth]
  have hrange : -150 ≤ (p.lowC : Rat) ∧ (p.highC : Rat) ≤ 150 := by
    cases p <;> norm_num [Profile.lowC, Profile.highC]
  have hbound : |tempOf p n| ≤ 150 := abs_le.2 ⟨hrange.1.trans hlow, hhigh.trans hrange.2⟩
  exact ⟨hleast.trans (le_abs_tempOf p n), hbound.trans_lt (by norm_num)⟩

/-- Settles O47: a temperature is in the normal range, where the rounded significand has 24 bits or carries once. -/
theorem recommendedEncodingRoundsToNearestEven : Obligations.RecommendedEncodingRoundsToNearestEven := by
  intro p payload hpayload t w
  obtain ⟨hlow, hhigh⟩ := tempOf_in_normalRange p hpayload
  have h : IsNearestNormal (magnitudeOf t) |t| := binary32_isNearestNormal hlow hhigh
  have hw : w = binary32 t := rfl
  rw [hw, binary32_exponent h, binary32_sign h, decide_eq_true_iff, binary32_error h, binary32Unit_binary32 h]
  refine ⟨h.normal.1, h.normal.2, Iff.rfl, h.nearest, fun htie => ?_⟩
  have heven := h.even htie
  rw [binary32_toNat h]
  omega

end Sys2Proof.Proofs

/-! The statements of 44_connection_monitor.md: what moves the heartbeat (R170, R171), what `Connected` measures (R172), and
the answer of `ISCONN` (R173). -/

namespace Sys2Proof.Proofs

open Sys2Proof.Machine

/-! ### Only a complete valid frame moves the heartbeat (R170, R171) -/

/-- An operation leaves the output alone, the heartbeat included, or it is a rising edge that ends a frame. -/
theorem exec_outputKept_or_endsFrame (i : Instr) (s t : State) (h : exec i s = .next t) :
    OutputKept s t ∨
      ∃ ts, i = .edgeRise ts ∧ s.inFrameAt ts ∧ EndsFrame ts { s with lastEdgeTimestamp := ts } t := by
  cases hi : i.port with
  | consumer => exact .inl { exec_consumer_keeps_producerState i s t hi h with }
  | producer =>
    cases i with
    | edgeFall ts =>
      cases h
      exact (edge_outputKept_or_endsFrame .falling ts s).imp_right nofun
    | edgeRise ts =>
      cases h
      exact (edge_outputKept_or_endsFrame .rising ts s).imp_right fun ⟨_, hin, ends⟩ => ⟨ts, rfl, hin, ends⟩
    | _ => cases hi

/-- Settles O33: of the operations only the end of a frame can touch the heartbeat, and of its two ends a mismatch
(R123) does not. -/
theorem heartbeatMovesOnlyWithACompleteFrame : Obligations.HeartbeatMovesOnlyWithACompleteFrame := by
  intro i s t h hne
  have notKept : t.hbValid = s.hbValid → t.lastHeartbeatTimestamp = s.lastHeartbeatTimestamp → False :=
    fun hvalid htime => hne.elim (· hvalid) (· htime)
  rcases exec_outputKept_or_endsFrame i s t h with kept | ⟨ts, hi, hin, hphase, rfl | ⟨hpos, rfl⟩⟩
  · exact (notKept kept.hbValid kept.lastHeartbeatTimestamp).elim
  · exact (notKept rfl rfl).elim
  · exact ⟨ts, hi, hin, hphase, hpos, rfl, rfl, rfl, completeFrame_visible ts { s with lastEdgeTimestamp := ts }⟩

/-! ### `Connected` (R172) -/

theorem connected_of_unheard {s : State} (hnever : s.hbValid = false) (now tmo : Nat) : connected s now tmo = false :=
  if_pos hnever

/-- Once a frame has been heard, `Connected` is the test of the heartbeat's age. -/
theorem connected_iff_of_heard {s : State} (hheard : s.hbValid = true) (now tmo : Nat) :
    connected s now tmo = true ↔ interval s.cfg.widths now s.lastHeartbeatTimestamp ≤ tmo * 1000 := by
  rw [connected_iff, and_iff_right hheard]

/-- The interval is 0 exactly between equal times. -/
theorem interval_eq_zero_iff {k : Widths} {a b : Nat} (ha : a < 2 ^ k.ts) (hb : b < 2 ^ k.ts) :
    interval k a b = 0 ↔ a = b := by
  refine ⟨fun h => ?_, fun h => ?_⟩
  · have hmod := interval_add_mod k a b
    rw [h, Nat.zero_add, Nat.mod_eq_of_lt ha, Nat.mod_eq_of_lt hb] at hmod
    exact hmod.symm
  · subst h
    simp [interval]

/-- No age is above `2^TS_W − 1` µs, so that a timeout from there on never expires. -/
theorem connected_of_longTimeout {s : State} (hheard : s.hbValid = true) (now : Nat) {tmo : Nat}
    (hlong : 2 ^ s.cfg.widths.ts - 1 ≤ tmo * 1000) : connected s now tmo = true := by
  rw [connected_iff_of_heard hheard]
  have := interval_lt s.cfg.widths now s.lastHeartbeatTimestamp
  omega

/-- Settles O50: the interval of the two stamps is the true elapsed time modulo `2^TS_W`, and the first clause is the
case in which the modulus does not bite. -/
theorem connectedMeasuresTrueElapsedTime : Obligations.ConnectedMeasuresTrueElapsedTime := by
  intro s heard now tmo hheard hstamp htimes
  have elapsed : connected s (stampOf s.cfg.widths now) tmo = true ↔
      (now - heard) % 2 ^ s.cfg.widths.ts ≤ tmo * 1000 := by
    rw [connected_iff_of_heard hheard, hstamp, stampOf, stampOf, interval_stamps _ _ _ (List.pairwise_pair.1 htimes)]
  refine ⟨fun hlt => ?_, elapsed⟩
  rwa [Nat.mod_eq_of_lt hlt] at elapsed

/-- Settles O49: with timeout 0 the age has to be 0, and no age is above the long timeouts. -/
theorem connectedCornerCases : Obligations.ConnectedCornerCases := by
  intro s now tmo
  refine ⟨fun hnever => connected_of_unheard hnever now tmo, fun hheard hnow hlast => ?_,
    fun hheard => connected_of_longTimeout hheard now, fun hheard hts htmo => connected_of_longTimeout hheard now ?_⟩
  · rw [connected_iff_of_heard hheard, Nat.zero_mul, Nat.le_zero, interval_eq_zero_iff hnow hlast]
  · rw [hts]
    omega

/-! ### The answer of `ISCONN` (R81, R173) -/

/-- The word of an `OK` response that carries a truth value: 1 or 0 (R81). -/
theorem packRsp_boolData (b : Bool) : packRsp .ok (boolData b) = if b = true then 1 else 0 := by
  cases b <;> rfl

/-- `ISCONN` only responds, with the test of the heartbeat's age. -/
theorem exec_isconn_eq (s : State) (now tmo : Nat) : exec (.isconn now tmo) s = .next { s with
    responses := s.responses ++
      [if s.hbValid = true ∧ interval s.cfg.widths now s.lastHeartbeatTimestamp ≤ tmo * 1000 then 1 else 0] } := by
  rw [exec_isconn, respond, packRsp_boolData, if_congr (connected_iff s now tmo) rfl rfl]

/-- Settles O48: the answer for every state, and the examples by their ages, 1000000 µs and 1000001 µs. -/
theorem isconnAnswersWhetherTheHeartbeatIsRecent : Obligations.IsconnAnswersWhetherTheHeartbeatIsRecent := by
  refine ⟨exec_isconn_eq, fun s hheard hlast hts => ?_⟩
  have age : ∀ now, 103965 ≤ now → now - 103965 < 2 ^ 32 →
      interval s.cfg.widths now s.lastHeartbeatTimestamp = now - 103965 := by
    intro now hle hlt
    rw [hlast]
    exact interval_of_le _ _ _ hle (by rwa [hts])
  rw [exec_isconn_eq, exec_isconn_eq, age 1103965 (by decide) (by decide), age 1103966 (by decide) (by decide),
    if_pos ⟨hheard, by decide⟩, if_neg fun h => absurd h.2 (by decide)]
  exact ⟨rfl, rfl⟩

end Sys2Proof.Proofs

/-! The statements of 45_control_and_read.md: the session between `BEGIN` and `END` (R181, R182), the queries and the armed
bit (R183), and the answers of `READ` (R185, R186). -/

namespace Sys2Proof.Proofs

open Sys2Proof.Machine

/-! ### The answers of `BEGIN` and `END` (R181, R182, R200) -/

/-- The word of an `OK` response without data (R81). -/
theorem respond_zero (s : State) : respond 0 s = { s with responses := s.responses ++ [0] } := rfl

/-- The word of a `BeginFailed` (R81, R200). -/
theorem raise_beginFailed (s : State) : raise .beginFailed s = { s with responses := s.responses ++ [0x300000000] } := rfl

/-- The word of a `NotConnected` (R81, R200). -/
theorem raise_notConnected (s : State) : raise .notConnected s = { s with responses := s.responses ++ [0x100000000] } := rfl

/-- Reset is already `IDLE` and has no last edge, so that a session's start only arms. -/
theorem startSession_resetWith (c : Config) :
    startSession (State.resetWith c) = { State.resetWith c with armed := true } := rfl

/-- Settles O51: each `attachOk` has its equation, and the session's start from reset is `startSession_resetWith`. -/
theorem beginArmsOrFails : Obligations.BeginArmsOrFails := by
  refine ⟨fun s => ⟨?_, ?_⟩, fun c => ?_⟩
  · rw [exec_begin_true, respond_zero, startSession]
  · rw [exec_begin_false, raise_beginFailed]
  · rw [exec_begin_true, startSession_resetWith, respond_zero, resetWith_responses, List.nil_append]

/-! ### Edges of a block that is not armed (R36, R182) -/

/-- While the block is not armed, no producer operation has any effect. -/
theorem exec_producer_unarmed {i : Instr} {s : State} (hi : i.port = .producer) (harmed : s.armed = false) :
    exec i s = .next s := by
  cases i with
  | edgeFall ts => rw [exec_edgeFall, edge_unarmed .falling ts s harmed]
  | edgeRise ts => rw [exec_edgeRise, edge_unarmed .rising ts s harmed]
  | _ => cases hi

theorem runOps_producer_unarmed {edges : List Instr} {s : State} (hedges : ∀ i ∈ edges, i.port = .producer)
    (harmed : s.armed = false) : runOps edges s = .next s := by
  induction edges with
  | nil => rfl
  | cons i rest ih =>
    rw [List.forall_mem_cons] at hedges
    rw [runOps_cons i rest s s (exec_producer_unarmed hedges.1 harmed)]
    exact ih hedges.2

/-- Settles O52: `END` leaves the block not armed, and then the edges do nothing. -/
theorem endStopsAllProducerActivity : Obligations.EndStopsAllProducerActivity := by
  intro s edges hedges
  rw [← respond_zero { s with armed := false }, runOps_cons .endOp edges s _ (exec_end s)]
  exact ⟨exec_end s, runOps_producer_unarmed hedges rfl⟩

/-! ### The three answers of `READ`, by what decides each (R185, R210) -/

section
variable {s : State} {now tmo : Nat}

theorem exec_read_notConnected (hconn : connected s now tmo = false) :
    exec (.read now tmo) s = .next (raise .notConnected s) := by
  rcases exec_read_result now tmo s with ⟨_, he⟩ | ⟨hc, _⟩ | ⟨hc, _⟩
  · exact he
  all_goals simp [hconn] at hc

theorem exec_read_misreading (hconn : connected s now tmo = true)
    (hbad : s.visible.valid = false ∨ plausible s s.visibleTemp now = false) :
    exec (.read now tmo) s = .next (raise .misreading s) := by
  rcases exec_read_result now tmo s with ⟨hc, _⟩ | ⟨_, _, he⟩ | ⟨_, hv, hp, _⟩
  · simp [hconn] at hc
  · exact he
  · simp [hv, hp] at hbad

theorem exec_read_reports (hconn : connected s now tmo = true) (hvalid : s.visible.valid = true)
    (hplausible : plausible s s.visibleTemp now = true) :
    exec (.read now tmo) s = .next (respond (tempEncode s.cfg.tempFormat s.visibleTemp)
      (recordReport (payloadOf s.cfg.profile s.visible.bits) now s)) := by
  rcases exec_read_result now tmo s with ⟨hc, _⟩ | ⟨_, hbad, _⟩ | ⟨_, _, _, he⟩
  · simp [hconn] at hc
  · simp [hvalid, hplausible] at hbad
  · exact he

end

/-- Settles O53: the premises are the three tests written out, and the temperature is that of the visible entry. -/
theorem readReportsThePlausibleTemperature : Obligations.ReadReportsThePlausibleTemperature := by
  intro s now tmo p payload temp hheard hage hvalid hchange
  have htemp : temp = s.visibleTemp := (tempOf_eq p payload).symm
  rw [htemp] at hchange
  rw [exec_read_reports ((connected_iff s now tmo).2 ⟨hheard, hage⟩) hvalid ((plausible_iff s _ now).2 hchange),
    respond, packRsp_ok, htemp]
  rfl

/-! ### Silence (R174, R186) -/

theorem connected_false_iff (s : State) (now tmo : Nat) :
    connected s now tmo = false ↔
      s.hbValid = false ∨ tmo * 1000 < interval s.cfg.widths now s.lastHeartbeatTimestamp := by
  rw [← Bool.not_eq_true, connected_iff, not_and_or, Bool.not_eq_true, Nat.not_le]

/-- The configuration and the heartbeat are the same in both states: all that `Connected` looks at (R172). -/
structure HeartbeatKept (s t : State) : Prop where
  cfg : t.cfg = s.cfg
  hbValid : t.hbValid = s.hbValid
  lastHeartbeatTimestamp : t.lastHeartbeatTimestamp = s.lastHeartbeatTimestamp

theorem HeartbeatKept.connected_eq {s t : State} (h : HeartbeatKept s t) (now tmo : Nat) :
    connected t now tmo = connected s now tmo := by
  rw [connected, connected, h.cfg, h.hbValid, h.lastHeartbeatTimestamp]

theorem runOps_consumer_keeps_heartbeat (ops : List Instr) (s t : State) (hops : ∀ i ∈ ops, i.port = .consumer)
    (h : runOps ops s = .next t) : HeartbeatKept s t := by
  refine runOps_induct (HeartbeatKept s) ops s t (fun i hi u v hu he => ?_) ⟨rfl, rfl, rfl⟩ h
  have kept := exec_consumer_keeps_producerState i u v (hops i hi) he
  exact ⟨kept.cfg.trans hu.cfg, kept.hbValid.trans hu.hbValid,
    kept.lastHeartbeatTimestamp.trans hu.lastHeartbeatTimestamp⟩

/-- Settles O59: no command moves the heartbeat, so that `Connected` is after them what it was before. -/
theorem silenceGivesNotConnected : Obligations.SilenceGivesNotConnected := by
  intro s t ops now tmo hops hrun hsilent
  have hconn : connected t now tmo = false := by
    rw [(runOps_consumer_keeps_heartbeat ops s t hops hrun).connected_eq, connected_false_iff]
    exact hsilent
  rw [exec_read_notConnected hconn, raise_notConnected]

/-! ### The queries and the armed bit (R183) -/

/-- None of the three tests of a `READ` looks at `armed`, so that the one that decides it decides it as before. -/
theorem exec_read_armed {s t : State} {now tmo : Nat} (a : Bool) (h : exec (.read now tmo) s = .next t) :
    exec (.read now tmo) { s with armed := a } = .next { t with armed := a } := by
  rcases exec_read_result now tmo s with ⟨hconn, he⟩ | ⟨hconn, hbad, he⟩ | ⟨hconn, hvalid, hplausible, he⟩ <;>
    rw [he] at h <;> cases h
  · exact exec_read_notConnected (s := { s with armed := a }) hconn
  · exact exec_read_misreading (s := { s with armed := a }) hconn hbad
  · exact exec_read_reports (s := { s with armed := a }) hconn hvalid hplausible

/-- Settles O58: `TAKE` and `ISCONN` answer a value that does not depend on `armed`, and `READ` is `exec_read_armed`. -/
theorem queriesIgnoreTheArmedBit : Obligations.QueriesIgnoreTheArmedBit := by
  rintro i s t a (rfl | ⟨now, tmo, rfl⟩ | ⟨now, tmo, rfl⟩) h
  · rw [exec_take] at h ⊢
    cases h
    rfl
  · rw [exec_isconn] at h ⊢
    cases h
    rfl
  · exact exec_read_armed a h

end Sys2Proof.Proofs

/-! The statements of 60_exceptions.md: which operation answers which outcome (R200), the two errors of `READ` (R201, R202),
and what neither the passing of time (R221) nor an agent (R219) changes. -/

namespace Sys2Proof.Proofs

open Sys2Proof.Machine

/-! ### The status field tells the outcomes apart (R81, R200) -/

theorem statusCode_injective : Function.Injective statusCode := by
  intro st st'
  cases st <;> cases st' <;> decide

/-- The status field of a response names one outcome. -/
theorem packRsp_status_eq_iff (st st' : Status) (d : DataWord) :
    (packRsp st d).toNat / 2 ^ 32 = (statusCode st').toNat ↔ st = st' := by
  rw [packRsp_status, BitVec.toNat_inj, statusCode_injective.eq_iff]

/-- An operation has one next state, and that state carries one outcome. -/
theorem outcome_eq_of_next_eq {s t u : State} {st st' : Status} {d d' : DataWord}
    (h : (.next t : Host.Outcome State Fault Refusal) = .next u) (ht : t.responses = s.responses ++ [packRsp st d])
    (hu : u.responses = s.responses ++ [packRsp st' d']) : st = st' := by
  cases h
  have hword : packRsp st d = packRsp st' d' := List.singleton_inj.1 (List.append_cancel_left (ht.symm.trans hu))
  rw [← packRsp_status_eq_iff st st' d, hword, packRsp_status]

/-! ### Which operation answers which outcome (R200) -/

/-- The table of R200, without its row for the reserved commands. -/
def MayAnswer (i : Instr) : Status → Prop
  | .ok => i.port = .consumer
  | .notConnected => ∃ now tmo, i = .read now tmo
  | .misreading => ∃ now tmo, i = .read now tmo
  | .beginFailed => i = .beginOp false
  | .badOperation => False

/-- A consumer operation answers one of the outcomes that the table gives it. -/
theorem exec_answers (i : Instr) (s t : State) (hi : i.port = .consumer) (h : exec i s = .next t) :
    ∃ st d, MayAnswer i st ∧ t.responses = s.responses ++ [packRsp st d] := by
  cases i with
  | edgeFall ts => cases hi
  | edgeRise ts => cases hi
  | beginOp a =>
    cases a <;> cases h
    · exact ⟨.beginFailed, 0, rfl, rfl⟩
    · exact ⟨.ok, 0, rfl, rfl⟩
  | endOp => cases h; exact ⟨.ok, 0, rfl, rfl⟩
  | take => cases h; exact ⟨.ok, _, rfl, rfl⟩
  | isconn now tmo => cases h; exact ⟨.ok, _, rfl, rfl⟩
  | read now tmo =>
    rcases exec_read_result now tmo s with ⟨_, he⟩ | ⟨_, _, he⟩ | ⟨_, _, _, he⟩ <;> rw [he] at h <;> cases h
    · exact ⟨.notConnected, 0, ⟨now, tmo, rfl⟩, rfl⟩
    · exact ⟨.misreading, 0, ⟨now, tmo, rfl⟩, rfl⟩
    · exact ⟨.ok, _, rfl, rfl⟩

/-- The status field of a response is an outcome that the operation may answer; a producer operation gives none. -/
theorem mayAnswer_of_status {i : Instr} {s t : State} {r : RspWord} (st : Status) (h : exec i s = .next t)
    (hr : t.responses = s.responses ++ [r]) (hst : r.toNat / 2 ^ 32 = (statusCode st).toNat) : MayAnswer i st := by
  cases hi : i.port with
  | producer =>
    rw [exec_producer_responses i s t h hi] at hr
    simp at hr
  | consumer =>
    obtain ⟨st', d, hmay, hanswer⟩ := exec_answers i s t hi h
    obtain rfl : r = packRsp st' d := List.singleton_inj.1 (List.append_cancel_left (hr.symm.trans hanswer))
    rwa [← (packRsp_status_eq_iff st' st d).1 hst]

/-! ### The two errors of `READ` (R201, R202) -/

/-- The three tests of a `READ` exclude each other, so that the error which it raises tells which of them decided. -/
theorem exec_read_raises {s : State} {now tmo : Nat} {st : Status} (hst : st ≠ .ok)
    (h : exec (.read now tmo) s = .next (raise st s)) :
    (st = .notConnected ∧ connected s now tmo = false) ∨
    (st = .misreading ∧ connected s now tmo = true ∧
      (s.visible.valid = false ∨ plausible s s.visibleTemp now = false)) := by
  rcases exec_read_result now tmo s with ⟨hconn, he⟩ | ⟨hconn, hbad, he⟩ | ⟨_, _, _, he⟩ <;>
    have hnext := h.symm.trans he
  · exact .inl ⟨outcome_eq_of_next_eq hnext rfl rfl, hconn⟩
  · exact .inr ⟨outcome_eq_of_next_eq hnext rfl rfl, hconn, hbad⟩
  · exact absurd (outcome_eq_of_next_eq hnext rfl rfl) hst

theorem exec_read_notConnected_iff (s : State) (now tmo : Nat) :
    exec (.read now tmo) s = .next (raise .notConnected s) ↔ connected s now tmo = false := by
  refine ⟨fun h => ?_, exec_read_notConnected⟩
  rcases exec_read_raises (by decide) h with ⟨_, hconn⟩ | ⟨hst, _⟩
  · exact hconn
  · cases hst

/-- Settles O54: a `READ` without a connection, by `exec_read_notConnected_iff`, and no other row of the table of R200
has code 1. -/
theorem readAnswersNotConnectedExactlyWithoutARecentFrame :
    Obligations.ReadAnswersNotConnectedExactlyWithoutARecentFrame := by
  refine ⟨fun s now tmo => ?_, fun i s t r h hr hcode => mayAnswer_of_status .notConnected h hr hcode⟩
  rw [← raise_notConnected, exec_read_notConnected_iff, connected_false_iff]

/-- Settles O55: a `Misreading` comes from the test of the visible entry, after that of the connection. -/
theorem readAnswersMisreadingExactlyOnBadFrames : Obligations.ReadAnswersMisreadingExactlyOnBadFrames := by
  intro s now tmo
  rw [← raise_misreading]
  refine ⟨fun h => ?_, fun ⟨hconn, hbad⟩ => exec_read_misreading hconn hbad⟩
  rcases exec_read_raises (by decide) h with ⟨hst, _⟩ | ⟨_, hconn, hbad⟩
  · cases hst
  · exact ⟨hconn, hbad⟩

/-! ### What time and the agents do not change (R219, R221) -/

/-- Settles O9: with an empty queue a step is `step_nil`. -/
theorem stepWithoutOperationChangesNothing : Obligations.StepWithoutOperationChangesNothing := step_nil

/-- No operation of either port writes the configuration. -/
theorem exec_cfg (i : Instr) (s t : State) (h : exec i s = .next t) : t.cfg = s.cfg := by
  cases hi : i.port with
  | consumer => exact (exec_consumer_keeps_producerState i s t hi h).cfg
  | producer =>
    cases i with
    | edgeFall ts => cases h; exact edge_cfg .falling ts s
    | edgeRise ts => cases h; exact edge_cfg .rising ts s
    | _ => cases hi

/-- Settles O17: the configuration is not touched by the queue, by the answer to a reserved command or by an operation. -/
theorem noStepChangesTheConfiguration : Obligations.NoStepChangesTheConfiguration := fun s t =>
  step_keeps (fun u => u.cfg = s.cfg) (fun _ _ hu => hu) (fun _ hu => hu)
    (fun i u v _ hu he => (exec_cfg i u v he).trans hu) s t rfl

end Sys2Proof.Proofs

/-! The statements of 70_reset_and_hazards.md: what the ports show of a block before its first `BEGIN` (R232). -/

namespace Sys2Proof.Proofs

open Sys2Proof.Machine

/-! ### A block that no `BEGIN` has armed yet (R232) -/

/-- All that edges and queries can show of the reset values: not armed, no frame heard, an empty visible entry. -/
structure Unused (s : State) : Prop where
  armed : s.armed = false
  hbValid : s.hbValid = false
  visible : s.visible = ⟨0, false⟩

theorem resetWith_unused (c : Config) : Unused (State.resetWith c) := ⟨rfl, rfl, rfl⟩

/-- Edges need an armed block, and of the commands only `BEGIN` arms it, while none of them publishes (R36, R60). -/
theorem exec_keeps_unused (i : Instr) (s t : State) (hbegin : ∀ a, i ≠ .beginOp a) (hs : Unused s)
    (h : exec i s = .next t) : Unused t := by
  cases hi : i.port with
  | producer =>
    obtain rfl : s = t := Host.Outcome.next.inj ((exec_producer_unarmed hi hs.armed).symm.trans h)
    exact hs
  | consumer =>
    rcases exec_consumer_result i s t hi h with ⟨rfl, _⟩ | ⟨_, rfl⟩ | ⟨_, rfl⟩ | ⟨_, _, _, rfl⟩
    · exact absurd rfl (hbegin true)
    · exact ⟨hs.armed, hs.hbValid, hs.visible⟩
    · exact ⟨rfl, hs.hbValid, hs.visible⟩
    · exact ⟨hs.armed, hs.hbValid, hs.visible⟩

theorem runOps_resetWith_unused (c : Config) (ops : List Instr) (t : State) (hbegin : ∀ a, Instr.beginOp a ∉ ops)
    (h : runOps ops (State.resetWith c) = .next t) : Unused t :=
  runOps_induct Unused ops _ t
    (fun i hi u v => exec_keeps_unused i u v fun a ha => hbegin a (ha ▸ hi)) (resetWith_unused c) h

/-- The word of a `TAKE` of an entry that was never written is 0, whatever the profile (R81). -/
theorem takeData_unwritten (p : Profile) : takeData p ⟨0, false⟩ = 0 := by
  cases p <;> rfl

/-- Settles O13: without a `BEGIN` the block stays `Unused`, and each answer is that of one of its three registers. -/
theorem beforeFirstBeginNothingIsHeard : Obligations.BeforeFirstBeginNothingIsHeard := by
  intro c ops t hbegin hrun
  have unused := runOps_resetWith_unused c ops t hbegin hrun
  have silent : ∀ now tmo, connected t now tmo = false := connected_of_unheard unused.hbValid
  refine ⟨fun ts => ⟨?_, ?_⟩, ?_, fun now tmo => ⟨?_, ?_⟩⟩
  · exact exec_producer_unarmed rfl unused.armed
  · exact exec_producer_unarmed rfl unused.armed
  · rw [exec_take, unused.visible, takeData_unwritten, respond_zero]
  · rw [exec_isconn, silent now tmo]
    exact congrArg Host.Outcome.next (respond_zero t)
  · rw [exec_read_notConnected (silent now tmo), raise_notConnected]

end Sys2Proof.Proofs
